-- ==== Sys2Proof/Word.lean ====
section
/-! DEFINITION. The words and identifier ranges of the KF2412 (Introduction, *Tracks, identifiers and numbers*). -/

namespace Sys2Proof

/-- One byte of a frame on the SPI port or on a gallery link. -/
abbrev Byte := BitVec 8

/-- A frame value: a value of the 32-bit wrapping station frame count (R62, R63). -/
abbrev Frame := BitVec 32

/-- A revision or airing counter (R5, R6), or another 16-bit code (target code, parameter, route base and mask). -/
abbrev Word16 := BitVec 16

/-- A 32-bit newsroom reference: a story key (R8) or a prompter script reference (R145). -/
abbrev Word32 := BitVec 32

/-- An item slot, which is the item's ID (R1). -/
abbrev Slot := Fin 512

/-- A device channel (R117). -/
abbrev Chan := Fin 12

/-- A presenter position (R79). -/
abbrev Pos := Fin 8

/-- An edit group (R24). -/
abbrev GroupNo := Fin 4

/-- A numbered route entry (R107). -/
abbrev RouteNo := Fin 16

/-- A panel input, in the order of section 3.8: TAKE A, SKIP A, HOLD A, TAKE B, SKIP B, HOLD B, CLEAR. -/
abbrev PanelInput := Fin 7

end Sys2Proof
end

