-- ==== Sys2Proof/Syntax.lean ====
section
/-! DEFINITION. The commands of the KF2412, one constructor for each row of spec/opcode_table.json, with their operands.

A host request carries its frame's fields as the numbers the frame holds (R163), so that a wrong code or an
out-of-range number reaches the part and is refused or clamped there (R155). An event of the part or of its
links carries what identifies it. -/

namespace Sys2Proof

/-- The two programmes. -/
inductive Track where
  | a
  | b
  deriving DecidableEq, Repr, Inhabited

/-- A cue entry as a request carries it (section 11.2): phase in bits 4 to 7 and action in bits 0 to 3 of the first byte. -/
structure RawCue where
  phaseAction : Nat
  offset : Nat
  target : Nat
  param : Nat
  deriving DecidableEq, Repr

/-- The item field block as a request carries it (section 11.2). -/
structure RawBlock where
  key : Nat
  kind : Nat
  flags : Nat
  presenter : Nat
  words : Nat
  planned : Nat
  hardIn : Nat
  script : Nat
  deriving DecidableEq, Repr

/-- One of the six item write requests, without its group field (R12 to R19). -/
inductive Edit where
  | create (track anchor : Nat) (block : RawBlock) (cues : List RawCue)
  | update (id revision fields : Nat) (block : RawBlock)
  | move (id revision anchor : Nat)
  | retire (id revision : Nat)
  | restore (id revision : Nat)
  | cues (id revision : Nat) (cues : List RawCue)
  deriving DecidableEq, Repr

/-- The settable fields of TRACK.CONFIG (R41). The hard-out is a frame value, which the presence byte marks given or absent (R163). -/
structure TrackSettings where
  takeDelay : Nat
  lockout : Nat
  band : Nat
  hysteresis : Nat
  hardOut : Nat
  presence : Nat
  deriving DecidableEq, Repr

/-- The settable fields of PRESENTER.CONFIG (R87), in the order the rule names them. Enabled and learn are flag bits of one byte
(DEDUCED), bits 0 and 1 (DESIGN CHOICE: notes/assumptions/1.md). -/
structure PresenterSettings where
  flags : Nat
  slowShift : Nat
  fastShift : Nat
  fastBound : Nat
  haltBand : Nat
  minWords : Nat
  wrap : Nat
  standbyLit : Nat
  standbyDark : Nat
  onAirLit : Nat
  onAirDark : Nat
  wrapLit : Nat
  wrapDark : Nat
  deriving DecidableEq, Repr

/-- The delivery fields of a route as a request carries them (R107, R110). -/
structure RawDelivery where
  channel : Nat
  preroll : Nat
  mode : Nat
  dwell : Nat
  answerTimeout : Nat
  guard : Nat
  tolerance : Nat
  deriving DecidableEq, Repr

/-- The settable fields of ROUTE.WRITE (R112), in the order of R107's table. -/
structure RouteSettings where
  enabled : Nat
  base : Nat
  mask : Nat
  tracks : Nat
  actions : Nat
  delivery : RawDelivery
  deriving DecidableEq, Repr

/-- The settable fields of CHANNEL.CONFIG (R134). -/
structure ChannelSettings where
  kind : Nat
  faultMode : Nat
  pollInterval : Nat
  silentLimit : Nat
  retryInterval : Nat
  deriving DecidableEq, Repr

/-- The settable fields of PART.CONFIG (R159). -/
structure PartSettings where
  mask : Nat
  frameRate : Nat
  debounce : Nat
  routeEnabled : Nat
  delivery : RawDelivery
  deriving DecidableEq, Repr

/-- One block's frame work at a frame event: each is carried out whole (R53, R57, R76, R98, R122, R141 to R143).
The status evaluation of each track, each panel input, each sequencer and each channel does its own. -/
inductive FrameWork where
  | panel (input : PanelInput)
  | sequencer (track : Track)
  | scheduler
  | channel (channel : Chan)
  | status (track : Track)
  | outputs
  deriving DecidableEq, Repr

/-- What comes with a frame event: the raw levels the panel inputs are sampled at (bit n set: input n active), and the
blocks whose frame work is carried out within the frame event's own step, in this order. The part fixes no order
between blocks (R59, R75, R105, R137, R148). A block left out does its frame work at a later command of its own, and
at the latest before the next frame event (DESIGN CHOICE: notes/assumptions/3.md). -/
structure FrameEvent where
  raw : BitVec 7
  now : List FrameWork
  deriving DecidableEq, Repr

/-- A gallery link on which the part sends frames (section 11.3). -/
inductive Link where
  | device (channel : Chan)
  | prompter
  | display
  deriving DecidableEq, Repr

/-- A gallery link on which the part receives frames (section 11.3). -/
inductive RxLink where
  | device (channel : Chan)
  | prompter
  deriving DecidableEq, Repr

/-- How far the host clocks a read transaction (R153): so many bytes, the summary status among them; or the whole
response, to the end its length byte gives, and `extra` bytes more. -/
inductive Clocked where
  | upTo (bytes : Nat)
  | whole (extra : Nat)
  deriving DecidableEq, Repr

/-- The commands: one constructor for each row of spec/opcode_table.json. -/
inductive Instr where
  -- Item table requests (R13 to R22).
  | itemCreate (track anchor : Nat) (block : RawBlock) (cues : List RawCue)
  | itemUpdate (id revision fields : Nat) (block : RawBlock)
  | itemMove (id revision anchor : Nat)
  | itemRetire (id revision : Nat)
  | itemRestore (id revision : Nat)
  | itemCues (id revision : Nat) (cues : List RawCue)
  | itemRead (id : Nat)
  | itemFind (key : Nat)
  | rundownList (track start count : Nat)
  -- Edit group requests (R26 to R38).
  | stagedEdit (group : Nat) (edit : Edit)
  | groupOpen (group track : Nat)
  | groupLaunch (group mode : Nat)
  | groupDiscard (group : Nat)
  | groupRead (group : Nat)
  -- Track requests (R41 to R55).
  | trackTake (track : Nat)
  | trackSkip (track : Nat)
  | trackHold (track value : Nat)
  | trackConfig (track fields : Nat) (settings : TrackSettings)
  | trackRead (track : Nat)
  | trackReset (track : Nat)
  -- Time base requests (R68, R69).
  | timeSet (value : Nat)
  | timeRead
  -- Presenter requests (R87 to R89).
  | presenterConfig (position fields : Nat) (settings : PresenterSettings)
  | presenterSeed (position rate : Nat)
  | presenterRead (position : Nat)
  -- Route table requests (R112 to R115).
  | routeWrite (entry fields : Nat) (settings : RouteSettings)
  | routeRead (entry : Nat)
  | routeTest (target action track : Nat)
  -- Channel requests (R134 to R136).
  | channelConfig (channel fields : Nat) (settings : ChannelSettings)
  | channelClear (channel : Nat)
  | channelRead (channel : Nat)
  -- Control link requests and transactions (R150 to R161).
  | eventRead
  | eventAckReset
  | partConfig (fields : Nat) (settings : PartSettings)
  | partRead
  | partReset
  | unknownRequest (length : Nat) (bytes : List Byte) (partByte : Bool)
  | readTransaction (clocked : Clocked)
  -- Resets (R160).
  | powerOn
  | rstAssert
  | rstRelease
  -- The time base (R64 to R66). `elapsed` is in quarters of a crystal period.
  | refPulse (elapsed : Nat) (frame : FrameEvent)
  | flywheelTick (frame : FrameEvent)
  | referenceLoss (frame : FrameEvent)
  -- Frame work of the panel inputs, the sequencers and the presenter unit (R49 to R57, R82).
  | panelDebounceExpiry (input : PanelInput)
  | lockoutExpiry (track : Track)
  | autoTake (track : Track)
  | hardInTake (track : Track)
  | presenterCompletion
  -- The cue scheduler (R98, R103).
  | cueOffer
  | cueCompletion
  -- Frame work of a channel (R122 to R131).
  | cueAgedLate (channel : Chan)
  | dwellExpiry (channel : Chan)
  | answerTimeout (channel : Chan)
  | guardExpiry (channel : Chan)
  | recoveryExpiry (channel : Chan)
  | silentFault (channel : Chan)
  | poll (channel : Chan)
  -- Frames arriving on the gallery links, and the links themselves (R126, R147, R164).
  | accept (channel : Chan) (tag : Byte)
  | refuse (channel : Chan) (tag : Byte)
  | status (channel : Chan) (value : Byte)
  | deviceFrameOther (channel : Chan) (type : Byte) (payload : List Byte)
  | endReport (script : Word32) (track : Byte)
  | linkTransmitDone (link : Link)
  | discardedLinkFrame (link : RxLink) (bytes : List Byte)
  deriving DecidableEq, Repr

end Sys2Proof
end

