-- ==== Sys2Proof/Machine/Bank.lean ====
section
/-! DEFINITION. A fixed number of like records, and a pair of things held one for each track. -/

namespace Sys2Proof.Machine

/-- Exactly `n` records, numbered from 0. -/
structure Bank (n : Nat) (α : Type) where
  cells : List α
  size : cells.length = n
  deriving DecidableEq, Repr

/-- A bank whose records are all alike. -/
def Bank.replicate (n : Nat) (a : α) : Bank n α := ⟨List.replicate n a, List.length_replicate⟩

/-- The record numbered `i`. -/
def Bank.get (b : Bank n α) (i : Fin n) : α := b.cells[i.val]'(by rw [b.size]; exact i.isLt)

/-- The bank with record `i` replaced. -/
def Bank.set (b : Bank n α) (i : Fin n) (a : α) : Bank n α := ⟨b.cells.set i.val a, by rw [List.length_set]; exact b.size⟩

/-- The bank with record `i` changed by `f`. -/
def Bank.modify (b : Bank n α) (i : Fin n) (f : α → α) : Bank n α := b.set i (f (b.get i))

/-- The bank with every record changed by `f`. -/
def Bank.map (b : Bank n α) (f : α → β) : Bank n β := ⟨b.cells.map f, by rw [List.length_map]; exact b.size⟩

/-- The records with their numbers, in ascending order. -/
def Bank.entries (b : Bank n α) : List (Fin n × α) := (List.finRange n).zip b.cells

/-- One thing for Track A and one for Track B. -/
structure PerTrack (α : Type) where
  a : α
  b : α
  deriving DecidableEq, Repr

/-- The thing held for a track. -/
def PerTrack.get (p : PerTrack α) : Track → α
  | .a => p.a
  | .b => p.b

/-- The pair with one track's thing replaced. -/
def PerTrack.set (p : PerTrack α) : Track → α → PerTrack α
  | .a, x => { p with a := x }
  | .b, x => { p with b := x }

end Sys2Proof.Machine
end

