-- ==== Sys2Proof/Machine/Records.lean ====
section
/-! DEFINITION. The records the blocks of the KF2412 hold, each with the values part reset gives it. -/

namespace Sys2Proof.Machine

/-! ### Item records (R3) -/

/-- The kind of an item (R3). -/
inductive Kind where
  | read | clip | package | live | brk
  deriving DecidableEq, Repr

/-- The state of an item (R3). -/
inductive ItemState where
  | planned | ready | onAir | done | skipped | staged
  deriving DecidableEq, Repr

/-- The condition of a slot (R1). -/
inductive Condition where
  | free | staged | live
  deriving DecidableEq, Repr

/-- The phase of a cue (R91). -/
inductive Phase where
  | ready | start | ending
  deriving DecidableEq, Repr

/-- What a cue's device is to do (R91). -/
inductive Action where
  | load | play | stop | in_ | out | pulse
  deriving DecidableEq, Repr

/-- The state of a cue (R92). -/
inductive CueState where
  | pending | armed | queued | sent | done | failed | abandoned
  deriving DecidableEq, Repr

/-- Why a cue failed (R93). -/
inductive FailCause where
  | unrouted | offline | kind | channelFault | queueFull | late | refused | timeout
  deriving DecidableEq, Repr

/-- How a channel judges a command complete (R107, R124). -/
inductive Mode where
  | timed | answer | early
  deriving DecidableEq, Repr

/-- The delivery fields of a route (R107). -/
structure Delivery where
  channel : Chan := 0
  preroll : Nat := 0
  mode : Mode := .timed
  dwell : Nat := 0
  answerTimeout : Nat := 10
  guard : Nat := 0
  tolerance : Nat := 5
  deriving DecidableEq, Repr

/-- A route number: an entry, or DEFAULT (R109). -/
inductive RouteId where
  | entry (n : RouteNo)
  | default
  deriving DecidableEq, Repr

/-- The copy a cue takes of the route that resolved it (R94). -/
structure Resolved where
  route : RouteId
  delivery : Delivery
  deriving DecidableEq, Repr

/-- The fields of a cue that the host gives (R91). -/
structure CueSpec where
  phase : Phase
  offset : Nat
  target : Word16
  action : Action
  param : Word16
  deriving DecidableEq, Repr

/-- A cue entry: the host's fields, and those the cue scheduler keeps (R91). -/
structure Cue where
  spec : CueSpec
  state : CueState := .pending
  failCause : Option FailCause := none
  lateFired : Bool := false
  lateness : Nat := 0
  resolved : Option Resolved := none
  fire : Option Frame := none
  deriving DecidableEq, Repr

/-- The fields of an item that the host gives with ITEM.CREATE and ITEM.UPDATE (R13, R14). -/
structure Fields where
  key : Word32 := 0
  kind : Kind := .read
  floated : Bool := false
  presenter : Option Pos := none
  words : Nat := 0
  planned : Nat := 0
  timed : Bool := false
  auto : Bool := false
  hardIn : Option Frame := none
  script : Option Word32 := none
  deriving DecidableEq, Repr

/-- An item slot and the record it holds (R1, R3). The ID is the slot's number. The default values are those of a
free slot; a free slot's key field is 0, which stands for "absent from map". -/
structure Item where
  condition : Condition := .free
  revision : Word16 := 0
  airing : Word16 := 0
  track : Track := .a
  fields : Fields := {}
  state : ItemState := .planned
  cues : List Cue := []
  start : Option Frame := none
  actual : Option Nat := none
  prompterEnd : Option Frame := none
  cueFault : Bool := false
  deriving DecidableEq, Repr

/-! ### Edit groups (R24) -/

/-- The result codes of a response (Introduction, *Requests and results*). BUSY is never the result of a formed
response (R155) and has no constructor. -/
inductive Result where
  | ok | clamped | frame | unknown | range | notFound | stale | duplicate | noSpace | onAir | state | tooSoon | noNext
  deriving DecidableEq, Repr

/-- The fields an ITEM.UPDATE names, each with its new value (R14). -/
structure Patch where
  key : Option Word32 := none
  kind : Option Kind := none
  floated : Option Bool := none
  presenter : Option (Option Pos) := none
  words : Option Nat := none
  planned : Option Nat := none
  timed : Option Bool := none
  auto : Option Bool := none
  hardIn : Option (Option Frame) := none
  script : Option (Option Word32) := none
  deriving DecidableEq, Repr

/-- What an accepted edit does, numeric fields already clamped (R24). A position is the head, or after an item. -/
inductive EditBody where
  | create (track : Track) (anchor : Option Slot) (fields : Fields) (cues : List CueSpec)
  | update (patch : Patch)
  | move (anchor : Option Slot)
  | retire
  | restore
  | cues (cues : List CueSpec)
  deriving DecidableEq, Repr

/-- A staged edit (R24): the item it names (for a CREATE the slot reserved for it), the revision carried, the body. -/
structure StagedEdit where
  slot : Slot
  revision : Option Word16
  body : EditBody
  deriving DecidableEq, Repr

/-- The state of a group (R24). -/
inductive GroupState where
  | idle | opened | armed
  deriving DecidableEq, Repr

/-- The launch mode of a group (R24). -/
inductive LaunchMode where
  | now | boundary
  deriving DecidableEq, Repr

/-- The last result of a group (R24). -/
inductive LastResult where
  | none
  | applied
  | rejected (cause : Result) (index : Nat)
  deriving DecidableEq, Repr

/-- A group record (R24). Its number is its place in the bank. -/
structure Group where
  state : GroupState := .idle
  track : Track := .a
  launch : Option LaunchMode := none
  edits : List StagedEdit := []
  reserved : List Slot := []
  reservedEntries : Nat := 0
  last : LastResult := .none
  deriving DecidableEq, Repr

/-! ### Tracks (R40) and panel inputs (R57) -/

/-- A track record (R40). -/
structure TrackRec where
  takeDelay : Nat := 3
  lockout : Nat := 12
  band : Nat := 125
  hysteresis : Nat := 25
  hardOut : Option Frame := none
  hostHold : Bool := false
  onAir : Option Slot := none
  ready : Option Slot := none
  lockoutCount : Nat := 0
  lastTake : Option Frame := none
  deriving DecidableEq, Repr

/-- An item of the hard-in watch, with the hard-in by which it is watched (R52). -/
structure Watched where
  slot : Slot
  hardIn : Frame
  deriving DecidableEq, Repr

/-- MODEL'S OWN: what a track's sequencer looks at in its frame work, as it stood when the frame event was made: a change of any of it
acts from the next frame event. The take delay of the auto-take frame and the hard-in watch (R41), the host hold (R42), whether the
item on air has auto yes (R51), and the hard-ins of the items READY or eligible (R14, R52). DEDUCED (notes/assumptions/16.md). -/
structure Look where
  takeDelay : Nat := 3
  hostHold : Bool := false
  auto : Bool := false
  hardIns : List Watched := []
  deriving DecidableEq, Repr

/-- A panel input (R57): the debounced level, the debounce count, and the raw level last sampled on the pin. -/
structure Panel where
  active : Bool := false
  count : Nat := 0
  raw : Bool := false
  deriving DecidableEq, Repr

/-- The over/under status of a track (R76). -/
inductive Status where
  | none | onTime | overTime | underTime
  deriving DecidableEq, Repr

/-- The auto-take condition TRACK.READ reports (R43). -/
inductive AutoCondition where
  | none | pending | waitingHold | waitingLockout | waitingReady
  deriving DecidableEq, Repr, Inhabited

/-! ### The time base (R64) -/

/-- The reference state (R64). -/
inductive RefState where
  | locked | flywheel
  deriving DecidableEq, Repr

/-- The frame-rate setting (R64): 25, 29.97, 30, 50, 59.94 and 60 frames per second. -/
inductive FrameRate where
  | r25 | r2997 | r30 | r50 | r5994 | r60
  deriving DecidableEq, Repr

/-! ### Presenters (R79, R86) -/

/-- The lit and dark counts of a light pattern (R79). -/
structure Pattern where
  lit : Nat
  dark : Nat
  deriving DecidableEq, Repr

/-- How a completion was measured (R81). -/
inductive MeasureKind where
  | prompter | actual
  deriving DecidableEq, Repr

/-- What a sample did (R84, R85). -/
inductive Learning where
  | learned | held | reseed
  deriving DecidableEq, Repr

/-- The last sample of a presenter (R86). -/
structure Sample where
  item : Slot
  track : Track
  kind : MeasureKind
  measure : Nat
  words : Nat
  rate : Nat
  difference : Int
  shift : Option Nat
  outcome : Learning
  rateAfter : Nat
  deriving DecidableEq, Repr

/-- A presenter record (R79). -/
structure Presenter where
  enabled : Bool := false
  rate : Nat := 2133
  learn : Bool := true
  slowShift : Nat := 3
  fastShift : Nat := 1
  fastBound : Nat := 512
  haltBand : Nat := 1536
  minWords : Nat := 20
  outliers : Nat := 0
  wrap : Nat := 250
  standby : Pattern := ⟨12, 12⟩
  onAir : Pattern := ⟨0, 0⟩
  wrapping : Pattern := ⟨4, 4⟩
  last : Option Sample := none
  deriving DecidableEq, Repr

/-- The completion of an outgoing item, as a take hands it to the presenter unit (R48). -/
structure ReadDone where
  item : Slot
  track : Track
  kind : Kind
  presenter : Option Pos
  words : Nat
  timed : Bool
  start : Frame
  actual : Nat
  prompterEnd : Option Frame
  deriving DecidableEq, Repr

/-! ### The cue scheduler (R98, R103) -/

/-- An entry of the firing list (R98): the cue and its actual fire frame. -/
structure Firing where
  fire : Frame
  slot : Slot
  index : Nat
  deriving DecidableEq, Repr

/-- The identity of a cue as an offer hands it to a channel (R99). -/
structure CueId where
  slot : Slot
  airing : Word16
  index : Nat
  deriving DecidableEq, Repr

/-- How a command ended (R103). -/
inductive CueOutcome where
  | done
  | failed (cause : FailCause)
  deriving DecidableEq, Repr

/-- A completion a channel hands the cue scheduler (R103). -/
structure CueDone where
  cue : CueId
  outcome : CueOutcome
  deriving DecidableEq, Repr

/-! ### Routes (R107, R110) -/

/-- A route entry (R107). Track and action subsets hold a bit for each code of section 11.2. -/
structure Route where
  enabled : Bool := false
  base : Word16 := 0
  mask : Word16 := 0
  tracks : BitVec 2 := 0
  actions : BitVec 6 := 0
  delivery : Delivery := {}
  deriving DecidableEq, Repr

/-- Entry 0 at part reset (R111). -/
def Route.catchAll : Route := { enabled := true, mask := 0xFFFF#16, tracks := 0x3#2, actions := 0x3F#6 }

/-- The default route (R110). -/
structure DefaultRoute where
  enabled : Bool := false
  delivery : Delivery := {}
  deriving DecidableEq, Repr

/-! ### Channels (R117) -/

/-- The class of device on a link (R118). -/
inductive ChannelKind where
  | none | clip | gfx | audio | aux
  deriving DecidableEq, Repr

/-- The state of a channel (R118). -/
inductive ChannelState where
  | offline | ready | busy | guard | faulted | recovering
  deriving DecidableEq, Repr

/-- What a fault does to a channel (R117). -/
inductive FaultMode where
  | latch | retry | report | ignore
  deriving DecidableEq, Repr

/-- The cause of a channel fault (R117). -/
inductive FaultCause where
  | timeout | silent | deviceError
  deriving DecidableEq, Repr

/-- A cue in a wait queue: the channel's own copy (R117). -/
structure Queued where
  cue : CueId
  track : Track
  action : Action
  param : Word16
  fire : Frame
  mode : Mode
  dwell : Nat
  answerTimeout : Nat
  guard : Nat
  tolerance : Nat
  deriving DecidableEq, Repr

/-- The command in a command slot (R117). -/
structure Command where
  cue : CueId
  track : Track
  action : Action
  param : Word16
  mode : Mode
  dwell : Nat
  answerTimeout : Nat
  guard : Nat
  tag : BitVec 4
  sendFrame : Frame
  busy : Nat
  deriving DecidableEq, Repr

/-- A channel record (R117). -/
structure Channel where
  kind : ChannelKind := .none
  state : ChannelState := .offline
  faultMode : FaultMode := .latch
  pollInterval : Nat := 25
  silentLimit : Nat := 100
  retryInterval : Nat := 250
  faultFlag : Bool := false
  faultCause : Option FaultCause := none
  tag : BitVec 4 := 0
  command : Option Command := none
  queue : List Queued := []
  silent : Nat := 0
  poll : Nat := 0
  guard : Nat := 0
  recovery : Nat := 0
  /-- MODEL'S OWN: the busy, guard or recovery count now running began at a frame event whose frame work the channel has still to do: it
  is counted from the next frame event on (R122, R124; DESIGN CHOICE: notes/assumptions/3.md). -/
  begun : Bool := false
  deriving DecidableEq, Repr

/-! ### Gallery outputs (R138) and gallery links (R164) -/

/-- A light state (R138). -/
inductive LightState where
  | off | standby | onAir | wrap
  deriving DecidableEq, Repr

/-- A presenter light (R138): shown state, phase count, output level, pattern-changed marker. -/
structure Light where
  shown : LightState := .off
  phase : Nat := 0
  lit : Bool := false
  changed : Bool := false
  deriving DecidableEq, Repr

/-- A frame the part makes for a gallery link (section 11.3). -/
inductive OutFrame where
  | command (tag : BitVec 4) (action : Action) (param : Word16) (track : Track)
  | poll
  | loadScript (script : Word32) (track : Track)
  | go (script : Word32) (track : Track)
  | display (position : Pos) (light : LightState) (countdown : Nat) (rate : FrameRate)
  deriving DecidableEq, Repr

/-- The sending side of a link (R164): the frame being sent, and the transmit queue behind it. -/
structure Transmit where
  sending : Option OutFrame := none
  queue : List OutFrame := []
  deriving DecidableEq, Repr

/-- The receiving side of a link (R164): discarding bytes until a lead byte, or taking a frame, of which it holds the
bytes after the lead. -/
inductive Receiver where
  | hunting
  | taking (bytes : List Byte)
  deriving DecidableEq, Repr

/-! ### The control link (R149) -/

/-- The event flags (R149). -/
inductive Event where
  | takeA | takeB | timingA | timingB | cueFail | channelFault | groupDone | rateReseed | reference | resetSeen
  deriving DecidableEq, Repr

/-- A yes or no for each of the ten event flags: the flags themselves, or the mask (R149). -/
structure EventSet where
  takeA : Bool := false
  takeB : Bool := false
  timingA : Bool := false
  timingB : Bool := false
  cueFail : Bool := false
  channelFault : Bool := false
  groupDone : Bool := false
  rateReseed : Bool := false
  reference : Bool := false
  resetSeen : Bool := false
  deriving DecidableEq, Repr

end Sys2Proof.Machine
end

