-- ==== Sys2Proof/Machine/Answer.lean ====
section
/-! DEFINITION. What the responses carry (the "answer" of each request's rule), field by field. -/

namespace Sys2Proof.Machine

/-- The six derived values of an item, each absent where it has none (R4). -/
structure Derived where
  estimate : Option Nat
  base : Option Nat
  working : Option Nat
  front : Option Frame
  back : Option Frame
  gap : Option Int
  deriving DecidableEq, Repr

/-- The answer of ITEM.READ (R20). -/
structure ItemReport where
  freeSlots : Nat
  freeEntries : Nat
  id : Slot
  item : Item
  derived : Derived
  deriving DecidableEq, Repr

/-- One item of the answer of RUNDOWN.LIST (R22). -/
structure ListRow where
  id : Slot
  revision : Word16
  state : ItemState
  floated : Bool
  working : Option Nat
  front : Option Frame
  back : Option Frame
  deriving DecidableEq, Repr

/-- One staged edit in the answer of GROUP.READ (R38): the request's code, the item, the revision carried. -/
structure EditHead where
  code : Nat
  slot : Slot
  revision : Option Word16
  deriving DecidableEq, Repr

/-- The answer of GROUP.READ (R38). -/
structure GroupReport where
  state : GroupState
  track : Track
  launch : Option LaunchMode
  place : Option Nat
  edits : List EditHead
  reserved : List Slot
  reservedEntries : Nat
  last : LastResult
  freeStaging : Nat
  deriving DecidableEq, Repr

/-- The answer of a staged edit (R28). -/
structure StagedReport where
  group : GroupNo
  index : Nat
  slot : Slot
  revision : Word16
  freeStaging : Nat
  deriving DecidableEq, Repr

/-- The answer of TRACK.TAKE (R50). -/
structure TakeReport where
  onAir : Option Slot
  start : Option Frame
  done : Option Slot
  actual : Option Nat
  ready : Option Slot
  deriving DecidableEq, Repr

/-- The configuration of a track, which TRACK.CONFIG answers (R40, R41). -/
structure TrackConfiguration where
  takeDelay : Nat
  lockout : Nat
  band : Nat
  hysteresis : Nat
  hardOut : Option Frame
  hostHold : Bool
  deriving DecidableEq, Repr

/-- The answer of TRACK.READ (R43): the record, the holds, the auto-take condition and its frame, the status and U,
and the armed queue. -/
structure TrackReport where
  record : TrackRec
  panelHold : Bool
  effectiveHold : Bool
  auto : AutoCondition
  autoFrame : Option Frame
  status : Status
  overUnder : Option Int
  armed : List GroupNo
  deriving DecidableEq, Repr

/-- What CHANNEL.READ reports of the command in the slot (R136). -/
structure CommandReport where
  cue : CueId
  track : Track
  action : Action
  param : Word16
  mode : Mode
  tag : BitVec 4
  sendFrame : Frame
  busy : Nat
  deriving DecidableEq, Repr

/-- What CHANNEL.READ reports of a queued cue (R136). -/
structure QueuedReport where
  cue : CueId
  track : Track
  action : Action
  fire : Frame
  deriving DecidableEq, Repr

/-- The answer of CHANNEL.READ (R136); the count of queued cues is the length of the queue. -/
structure ChannelReport where
  kind : ChannelKind
  state : ChannelState
  faultMode : FaultMode
  pollInterval : Nat
  silentLimit : Nat
  retryInterval : Nat
  faultFlag : Bool
  faultCause : Option FaultCause
  tag : BitVec 4
  command : Option CommandReport
  queue : List QueuedReport
  silent : Nat
  poll : Nat
  guard : Nat
  recovery : Nat
  deriving DecidableEq, Repr

/-- The configuration answered by PART.CONFIG and PART.READ, with the event flags (R159). -/
structure PartReport where
  mask : EventSet
  frameRate : FrameRate
  debounce : Nat
  defaultRoute : DefaultRoute
  flags : EventSet
  deriving DecidableEq, Repr

/-- The body of a response: the fields the request's rule lists (R155). -/
inductive Body where
  /-- A refused request's body, and that of EVENT.ACK_RESET and PART.RESET (R155, R158, R161). -/
  | empty
  /-- An accepted direct write, and ITEM.FIND (R12, R21). -/
  | item (id : Slot) (revision : Word16)
  | itemRead (report : ItemReport)
  | rundown (rows : List ListRow) (further : Bool)
  | groupOpened (group : GroupNo) (freeStaging : Nat)
  | staged (report : StagedReport)
  | launched (state : GroupState) (last : LastResult) (place : Option Nat)
  | discarded (freeStaging : Nat)
  | groupRead (report : GroupReport)
  | taken (report : TakeReport)
  | skipped (item : Slot) (ready : Option Slot)
  | hold (host panel effective : Bool)
  | trackConfig (configuration : TrackConfiguration)
  | trackRead (report : TrackReport)
  | trackReset (ready : Option Slot)
  | timeSet (before after : Frame)
  | timeRead (sfc : Frame) (reference : RefState) (rate : FrameRate) (qualifying : Option Nat)
  | presenterConfig (record : Presenter)
  | seeded (rate outliers : Nat)
  | presenterRead (record : Presenter) (estimate100 : Nat)
  | route (entry : Route) (isGlobal : Bool)
  | defaultRoute (route : DefaultRoute)
  | routeTest (resolved : Option Resolved) (passedOver : Option RouteNo)
  | channelConfig (record : Channel)
  | channelCleared (state : ChannelState)
  | channelRead (report : ChannelReport)
  | events (flags mask : EventSet)
  | part (report : PartReport)
  deriving DecidableEq, Repr

/-- A response: one result and its body (R155). -/
structure Answer where
  result : Result
  body : Body
  deriving DecidableEq, Repr

/-- The response buffer (R149). -/
inductive Buffer where
  | empty
  | forming (answer : Answer)
  | ready (answer : Answer)
  deriving DecidableEq, Repr

/-- A frame, or a part of one, whose fields stand in no layout table of section 11.2: the answers by their bodies, a queued cue in
CHANNEL.READ's, the two lists in GROUP.READ's, and the five requests whose settings have a size and no layout. -/
inductive Layout where
  | item | rundown | groupOpened | staged | launched | discarded | groupRead | groupEdits | groupReserved | taken | skipped | hold
  | trackConfig | trackRead | trackReset | timeSet | timeRead | presenterConfig | seeded | presenterRead | route | defaultRoute
  | routeTest | channelConfig | channelCleared | channelRead | queuedRow | events | part
  | setTrack | setPresenter | setRoute | setChannel | setPart
  deriving DecidableEq, Repr

end Sys2Proof.Machine
end

