-- ==== Sys2Proof/Config.lean ====
section
/-! DEFINITION. The figures of the part (Introduction, *Main figures*), and the free values: what the data book leaves
open, as constants with no body, so that no proof can rest on a value of one. -/

namespace Sys2Proof.Config

open Sys2Proof.Machine

/-- Cue entries in the pool (R11). -/
def poolEntries : Nat := 2048

/-- Staging entries in the pool (R30). -/
def stagingEntries : Nat := 128

/-- Cues a list may hold (R12). -/
def maxCues : Nat := 16

/-- Cues a wait queue may hold (R119, R120). -/
def maxQueue : Nat := 8

/-- Frames a transmit queue may hold (R164). -/
def maxTransmit : Nat := 64

/-- Bytes a response body may have (R163). -/
def maxBody : Nat := 1020

/-- The largest elapsed and the largest countdown (R71, R140). -/
def maxElapsed : Nat := 16777215

/-- FREE VALUE, DESIGN CHOICE (notes/assumptions/1.md). Where the field of a number stands in a frame with no layout table: the fields
stand in ascending rank, those of one rank as they are numbered. -/
opaque rank : Layout → Nat → Nat

/-- FREE VALUE, DESIGN CHOICE (notes/assumptions/1.md). The width in bytes of a field of a response that holds a number and stands in no
layout table, where it is more than the bytes that the number's range takes. -/
opaque width : Layout → Nat → Nat

/-- FREE VALUE, DESIGN CHOICE (notes/assumptions/1.md). Whether a yes or no of a response is a flag bit, or a byte of its own (section
11.2 allows either). -/
opaque asFlag : Layout → Nat → Bool

/-- FREE VALUE, DESIGN CHOICE (notes/assumptions/1.md). What stands ahead of the rows of a list of so many rows. -/
opaque listLead : Layout → Nat → List Byte

/-- FREE VALUE, DESIGN CHOICE (notes/assumptions/2.md). The auto-take condition TRACK.READ reports when the auto-take frame is reached
and no cause that R43 lists holds the take back; the argument is the SFC. -/
opaque autoConditionUnheld : Frame → AutoCondition

end Sys2Proof.Config
end

