-- ==== Sys2Proof/Machine/Operands.lean ====
section
/-! DEFINITION. What a request's numbers mean: the codes of section 11.2, identifiers, field sets, clamping, and the form
check of the item requests (step 1 of R12). `none` is a RANGE refusal. -/

namespace Sys2Proof.Machine

/-! ### Codes and identifiers (section 11.2) -/

/-- Track code. -/
def trackOf : Nat → Option Track
  | 0 => some .a
  | 1 => some .b
  | _ => none

/-- Item kind code. -/
def kindOf : Nat → Option Kind
  | 0 => some .read
  | 1 => some .clip
  | 2 => some .package
  | 3 => some .live
  | 4 => some .brk
  | _ => none

/-- Phase code. -/
def phaseOf : Nat → Option Phase
  | 0 => some .ready
  | 1 => some .start
  | 2 => some .ending
  | _ => none

/-- Action code. -/
def actionOf : Nat → Option Action
  | 0 => some .load
  | 1 => some .play
  | 2 => some .stop
  | 3 => some .in_
  | 4 => some .out
  | 5 => some .pulse
  | _ => none

/-- Completion mode code. -/
def modeOf : Nat → Option Mode
  | 0 => some .timed
  | 1 => some .answer
  | 2 => some .early
  | _ => none

/-- Channel kind code. -/
def channelKindOf : Nat → Option ChannelKind
  | 0 => some .none
  | 1 => some .clip
  | 2 => some .gfx
  | 3 => some .audio
  | 4 => some .aux
  | _ => none

/-- Fault mode code. -/
def faultModeOf : Nat → Option FaultMode
  | 0 => some .latch
  | 1 => some .retry
  | 2 => some .report
  | 3 => some .ignore
  | _ => none

/-- Frame rate code. -/
def frameRateOf : Nat → Option FrameRate
  | 0 => some .r25
  | 1 => some .r2997
  | 2 => some .r30
  | 3 => some .r50
  | 4 => some .r5994
  | 5 => some .r60
  | _ => none

/-- Launch mode code. -/
def launchModeOf : Nat → Option LaunchMode
  | 0 => some .now
  | 1 => some .boundary
  | _ => none

/-- Yes or no, as a byte. -/
def yesNoOf : Nat → Option Bool
  | 0 => some false
  | 1 => some true
  | _ => none

/-- An identifier below a bound. -/
def idOf (n v : Nat) : Option (Fin n) := if h : v < n then some ⟨v, h⟩ else none

/-- An anchor: an item ID, or FFFFh for the head. -/
def anchorOf (v : Nat) : Option (Option Slot) := if v = 0xFFFF then some none else (idOf 512 v).map some

/-- Action code of an action. -/
def Action.code : Action → Nat
  | .load => 0
  | .play => 1
  | .stop => 2
  | .in_ => 3
  | .out => 4
  | .pulse => 5

/-- Track code of a track. -/
def trackCode : Track → Nat
  | .a => 0
  | .b => 1

/-! ### Clamping and field sets (R155, R163) -/

/-- A number stored at the nearest limit of its range (R155). -/
def clampTo (lo hi v : Nat) : Nat := if v < lo then lo else if hi < v then hi else v

/-- A number lies outside its range. -/
def outside (lo hi v : Nat) : Bool := decide (v < lo) || decide (hi < v)

/-- A field set is refused when it is empty or holds a bit with no field (R163). -/
def badFieldSet (count fields : Nat) : Bool := decide (fields = 0) || decide (2 ^ count ≤ fields)

/-- The value a field takes: the one given when the field is named, the one it holds otherwise. -/
def pick (named : Bool) (given held : α) : α := if named then given else held

/-- A list of optional values, when every one is present. -/
def allPresent : List (Option α) → Option (List α)
  | [] => some []
  | none :: _ => none
  | some x :: l => (allPresent l).map (x :: ·)

/-- The largest words figure (R3). -/
def maxWords : Nat := 4095

/-- The largest planned figure (R3). -/
def maxPlanned : Nat := 1048575

/-- A write request that has passed its form check: the item it names (none for a CREATE), the revision carried, what it
does, and whether a number was clamped. -/
structure ParsedEdit where
  slot : Option Slot
  revision : Option Word16
  body : EditBody
  clamped : Bool
  deriving DecidableEq, Repr

/-- The request code of an edit, which GROUP.READ reports (section 11.2). -/
def EditBody.code : EditBody → Nat
  | .create .. => 1
  | .update .. => 2
  | .move .. => 3
  | .retire => 4
  | .restore => 5
  | .cues .. => 6

end Sys2Proof.Machine

namespace Sys2Proof

open Sys2Proof.Machine

/-! ### The item requests -/

/-- A cue entry: its phase and action codes are checked, and the offset is kept for START and stored as 0 for READY and
END (R12 step 1, R13). -/
def RawCue.parse (c : RawCue) : Option CueSpec :=
  match phaseOf (c.phaseAction / 16), actionOf (c.phaseAction % 16) with
  | some ph, some act =>
    some { phase := ph
           offset := match ph with
             | .start => c.offset
             | _ => 0
           target := BitVec.ofNat 16 c.target
           action := act
           param := BitVec.ofNat 16 c.param }
  | _, _ => none

/-- A cue list: at most 16 entries, each well coded (R12 step 1). -/
def parseCues (l : List RawCue) : Option (List CueSpec) :=
  if Config.maxCues < l.length then none else allPresent (l.map RawCue.parse)

/-- The flags byte of a field block has no bit beyond bit 5 (R163). -/
def RawBlock.flagsBad (b : RawBlock) : Bool := decide (64 ≤ b.flags)

/-- The presenter a field block gives: absent, or a position 0 to 7. -/
def RawBlock.presenterOf (b : RawBlock) : Option (Option Pos) :=
  if b.flags.testBit 3 then (idOf 8 b.presenter).map some else some none

/-- The hard-in a field block gives. -/
def RawBlock.hardInOf (b : RawBlock) : Option Frame := if b.flags.testBit 4 then some (BitVec.ofNat 32 b.hardIn) else none

/-- The script a field block gives. -/
def RawBlock.scriptOf (b : RawBlock) : Option Word32 := if b.flags.testBit 5 then some (BitVec.ofNat 32 b.script) else none

/-- The fields of an ITEM.CREATE: a key of 0, a wrong kind, a presenter above 7 or an undefined flag bit is refused, and
words and planned are clamped (R12). DEDUCED (notes/assumptions/8.md) in what an undefined bit does. -/
def RawBlock.parse (b : RawBlock) : Option Fields :=
  if b.flagsBad || decide (b.key = 0) then none
  else
    match kindOf b.kind, b.presenterOf with
    | some k, some p =>
      some { key := BitVec.ofNat 32 b.key
             kind := k
             floated := b.flags.testBit 0
             presenter := p
             words := clampTo 0 maxWords b.words
             planned := clampTo 0 maxPlanned b.planned
             timed := b.flags.testBit 1
             auto := b.flags.testBit 2
             hardIn := b.hardInOf
             script := b.scriptOf }
    | _, _ => none

/-- A number of an ITEM.CREATE was stored at its limit. -/
def RawBlock.clamped (b : RawBlock) : Bool := outside 0 maxWords b.words || outside 0 maxPlanned b.planned

/-- The fields an ITEM.UPDATE names, in the order R14 names them: story key, kind, floated, presenter, words, planned,
timed, auto, hard-in, script. Only the fields named are read, and a bit with no field is refused (R14, R163). -/
def RawBlock.parsePatch (b : RawBlock) (fields : Nat) : Option Patch :=
  if b.flagsBad || badFieldSet 10 fields || (fields.testBit 0 && decide (b.key = 0))
      || (fields.testBit 1 && (kindOf b.kind).isNone) || (fields.testBit 3 && b.presenterOf.isNone) then none
  else
    some { key := if fields.testBit 0 then some (BitVec.ofNat 32 b.key) else none
           kind := if fields.testBit 1 then kindOf b.kind else none
           floated := if fields.testBit 2 then some (b.flags.testBit 0) else none
           presenter := if fields.testBit 3 then b.presenterOf else none
           words := if fields.testBit 4 then some (clampTo 0 maxWords b.words) else none
           planned := if fields.testBit 5 then some (clampTo 0 maxPlanned b.planned) else none
           timed := if fields.testBit 6 then some (b.flags.testBit 1) else none
           auto := if fields.testBit 7 then some (b.flags.testBit 2) else none
           hardIn := if fields.testBit 8 then some b.hardInOf else none
           script := if fields.testBit 9 then some b.scriptOf else none }

/-- A number of an ITEM.UPDATE was stored at its limit. -/
def RawBlock.patchClamped (b : RawBlock) (fields : Nat) : Bool :=
  (fields.testBit 4 && outside 0 maxWords b.words) || (fields.testBit 5 && outside 0 maxPlanned b.planned)

/-- Step 1 of R12, the form of a write request; `none` is RANGE. -/
def Edit.parse : Edit → Option ParsedEdit
  | .create track anchor block list =>
    match trackOf track, anchorOf anchor, block.parse, parseCues list with
    | some t, some a, some f, some l => some ⟨none, none, .create t a f l, block.clamped⟩
    | _, _, _, _ => none
  | .update id revision fields block =>
    match idOf 512 id, block.parsePatch fields with
    | some i, some p => some ⟨some i, some (BitVec.ofNat 16 revision), .update p, block.patchClamped fields⟩
    | _, _ => none
  | .move id revision anchor =>
    match idOf 512 id, anchorOf anchor with
    | some i, some a => some ⟨some i, some (BitVec.ofNat 16 revision), .move a, false⟩
    | _, _ => none
  | .retire id revision => (idOf 512 id).map (fun i => ⟨some i, some (BitVec.ofNat 16 revision), .retire, false⟩)
  | .restore id revision => (idOf 512 id).map (fun i => ⟨some i, some (BitVec.ofNat 16 revision), .restore, false⟩)
  | .cues id revision list =>
    match idOf 512 id, parseCues list with
    | some i, some l => some ⟨some i, some (BitVec.ofNat 16 revision), .cues l, false⟩
    | _, _ => none

/-! ### TRACK.CONFIG (R41) -/

/-- The hard-out a TRACK.CONFIG gives: a frame value, or absent where the presence bit is clear (R41, R163). DEDUCED
(notes/assumptions/8.md): the one optional field's presence bit is bit 0. -/
def TrackSettings.hardOutOf (v : TrackSettings) : Option Frame :=
  if v.presence.testBit 0 then some (BitVec.ofNat 32 v.hardOut) else none

/-- The presence byte holds a bit with no meaning: it has the hard-out's bit alone (R163). -/
def TrackSettings.presenceBad (v : TrackSettings) : Bool := decide (2 ≤ v.presence)

/-! ### Delivery fields (R110, R112) -/

/-- The delivery fields named by bits `at`, `at`+1, … of a field set, in the order channel, preroll, mode, dwell, answer
timeout, guard, tolerance; a channel above 11 or a wrong mode code is refused (R112 steps 3 and 4, R159 step 3).
DEDUCED (notes/assumptions/8.md) in what a field not named does. -/
def RawDelivery.apply (d : RawDelivery) (fields first : Nat) (held : Delivery) : Option Delivery :=
  if (fields.testBit first && (idOf 12 d.channel).isNone) || (fields.testBit (first + 2) && (modeOf d.mode).isNone) then none
  else
    some { channel := pick (fields.testBit first) ((idOf 12 d.channel).getD held.channel) held.channel
           preroll := pick (fields.testBit (first + 1)) (clampTo 0 15 d.preroll) held.preroll
           mode := pick (fields.testBit (first + 2)) ((modeOf d.mode).getD held.mode) held.mode
           dwell := pick (fields.testBit (first + 3)) (clampTo 0 255 d.dwell) held.dwell
           answerTimeout := pick (fields.testBit (first + 4)) (clampTo 1 255 d.answerTimeout) held.answerTimeout
           guard := pick (fields.testBit (first + 5)) (clampTo 0 15 d.guard) held.guard
           tolerance := pick (fields.testBit (first + 6)) (clampTo 0 255 d.tolerance) held.tolerance }

/-- A delivery field was stored at its limit. -/
def RawDelivery.clamped (d : RawDelivery) (fields first : Nat) : Bool :=
  (fields.testBit (first + 1) && outside 0 15 d.preroll) || (fields.testBit (first + 3) && outside 0 255 d.dwell)
    || (fields.testBit (first + 4) && outside 1 255 d.answerTimeout) || (fields.testBit (first + 5) && outside 0 15 d.guard)
    || (fields.testBit (first + 6) && outside 0 255 d.tolerance)

end Sys2Proof
end

