-- ==== Sys2Proof/Machine/State.lean ====
section
/-! DEFINITION. The state of the KF2412, and the machine right after part reset. -/

namespace Sys2Proof.Machine

/-- Why a command stops the machine: no command does. Every rule of the data book that refuses a request answers it with a
result code, and an event that cannot happen in a state changes nothing there (DEDUCED: notes/assumptions/4.md). -/
inductive Fault
  deriving DecidableEq, Repr

/-- Why a command is refused by the model. -/
inductive Refusal where
  /-- Raised by exec for a row that has no meaning yet; no row is left. Safe: the machine stops. -/
  | notModelled (mnemonic : String)
  deriving DecidableEq, Repr

/-- The state of the part, block by block. -/
structure State where
  /-- The item table (R1, R3). -/
  slots : Bank 512 Item
  /-- The rundown orders (R9). -/
  orders : PerTrack (List Slot)
  /-- The edit group records (R24). -/
  groups : Bank 4 Group
  /-- The armed queues, head first (R34). -/
  armed : PerTrack (List GroupNo)
  /-- The track records (R40). -/
  tracks : PerTrack TrackRec
  /-- The panel inputs (R57). -/
  panel : Bank 7 Panel
  /-- The station frame count (R62). -/
  sfc : Frame
  /-- The reference state (R64). -/
  reference : RefState
  /-- The qualifying count (R64). -/
  qualifying : Nat
  /-- Time since the last frame event, in quarters of a crystal period (R65, R66). -/
  sinceFrame : Nat
  /-- Time since the flywheel timer started or restarted (R64, R66). -/
  sinceTimer : Nat
  /-- Time since the last pulse not disregarded (R66). -/
  sincePulse : Nat
  /-- Whether the last frame event was a flywheel tick; the end of a reset stands as one (R64, R66). -/
  lastTick : Bool
  /-- The over/under status of each track (R76). -/
  status : PerTrack Status
  /-- The presenter records (R79). -/
  presenters : Bank 8 Presenter
  /-- The presenter unit's completion list, head first (R90). -/
  readsDone : List ReadDone
  /-- The firing list, head first (R98). -/
  firing : List Firing
  /-- The cue scheduler's completion list, head first (R103). -/
  cuesDone : List CueDone
  /-- The route entries (R107). -/
  routes : Bank 16 Route
  /-- Entry 0's GLOBAL flag (R111). -/
  isGlobal : Bool
  /-- The default route (R110). -/
  defaultRoute : DefaultRoute
  /-- The channel records (R117). -/
  channels : Bank 12 Channel
  /-- The presenter lights (R138). -/
  lights : Bank 8 Light
  /-- The display rotation index (R138). -/
  rotation : Pos
  /-- The response buffer (R149). -/
  buffer : Buffer
  /-- The event flags (R149). -/
  flags : EventSet
  /-- The event mask (R149). -/
  mask : EventSet
  /-- The panel debounce setting (R149). -/
  debounce : Nat
  /-- The frame-rate setting (R149). -/
  frameRate : FrameRate
  /-- The sending sides of the device links (R164). -/
  deviceTx : Bank 12 Transmit
  /-- The sending side of the prompter link (R164). -/
  prompterTx : Transmit
  /-- The sending side of the display link (R164). -/
  displayTx : Transmit
  /-- The receivers of the device links (R164). -/
  deviceRx : Bank 12 Receiver
  /-- The receiver of the prompter link (R164). -/
  prompterRx : Receiver
  /-- Whether the part is held in reset (R160). -/
  held : Bool
  /-- MODEL'S OWN: the blocks whose frame work of the last frame event is still to be carried out
  (DESIGN CHOICE: notes/assumptions/3.md). -/
  due : List FrameWork
  /-- MODEL'S OWN: whether a take of each track was made while the sequencer's frame work of the last frame event was still to be
  carried out: the lockout that take started is counted from the next frame event on, and no auto-take is looked at in that work
  (R49, R59; DESIGN CHOICE: notes/assumptions/3.md). -/
  cut : PerTrack Bool
  /-- MODEL'S OWN: the SFC as the last frame event left it. What a TIME.SET has moved the SFC past since is reached from the next frame
  event on (R51, R68, R98; DEDUCED: notes/assumptions/16.md). -/
  counted : Frame
  /-- MODEL'S OWN: what each track's sequencer looks at in its frame work of the last frame event, as it stood when that event was made
  (R14, R41, R42, R51, R52; DEDUCED: notes/assumptions/16.md). -/
  looks : PerTrack Look
  /-- MODEL'S OWN: the summary status byte shifted out by the last transaction (R150). -/
  sdoStatus : Byte
  /-- MODEL'S OWN: the bytes shifted out after it, in a read transaction (R153). -/
  sdo : List Byte
  /-- MODEL'S OWN: the commands waiting, first in, first out (notes/assumptions/5.md). -/
  pending : List Instr
  deriving DecidableEq, Repr

/-- Right after part reset (R2, R24, R34, R56, R57, R64, R77, R79, R106, R107, R111, R117, R138, R149, R160).
DESIGN CHOICE (notes/assumptions/13.md) for the values that no rule states. -/
def State.reset : State where
  slots := Bank.replicate 512 {}
  orders := ⟨[], []⟩
  groups := Bank.replicate 4 {}
  armed := ⟨[], []⟩
  tracks := ⟨{}, {}⟩
  panel := Bank.replicate 7 {}
  sfc := 0
  reference := .flywheel
  qualifying := 0
  sinceFrame := 0
  sinceTimer := 0
  sincePulse := 0
  lastTick := true
  status := ⟨.none, .none⟩
  presenters := Bank.replicate 8 {}
  readsDone := []
  firing := []
  cuesDone := []
  routes := (Bank.replicate 16 {}).set 0 Route.catchAll
  isGlobal := true
  defaultRoute := {}
  channels := Bank.replicate 12 {}
  lights := Bank.replicate 8 {}
  rotation := 0
  buffer := .empty
  flags := { resetSeen := true }
  mask := ⟨true, true, true, true, true, true, true, true, true, true⟩
  debounce := 2
  frameRate := .r25
  deviceTx := Bank.replicate 12 {}
  prompterTx := {}
  displayTx := {}
  deviceRx := Bank.replicate 12 .hunting
  prompterRx := .hunting
  held := false
  due := []
  cut := ⟨false, false⟩
  counted := 0
  looks := ⟨{}, {}⟩
  sdoStatus := 0
  sdo := []
  pending := []

end Sys2Proof.Machine
end

