-- ==== Sys2Proof/Machine/Ops.lean ====
section
/-! DEFINITION. The named operations over the state: reading and writing each record, frame arithmetic, the item counters,
the pools and the story-key map, and putting a frame on a gallery link. -/

namespace Sys2Proof.Machine

/-! ### Records -/

/-- The record of an item slot. -/
def State.slot (s : State) (i : Slot) : Item := s.slots.get i
/-- The state with an item slot's record replaced. -/
def State.setSlot (s : State) (i : Slot) (x : Item) : State := { s with slots := s.slots.set i x }
/-- The rundown order of a track. -/
def State.order (s : State) (t : Track) : List Slot := s.orders.get t
/-- The state with a track's rundown order replaced. -/
def State.setOrder (s : State) (t : Track) (l : List Slot) : State := { s with orders := s.orders.set t l }
/-- A group record. -/
def State.group (s : State) (g : GroupNo) : Group := s.groups.get g
/-- The state with a group record replaced. -/
def State.setGroup (s : State) (g : GroupNo) (x : Group) : State := { s with groups := s.groups.set g x }
/-- The armed queue of a track. -/
def State.armedQueue (s : State) (t : Track) : List GroupNo := s.armed.get t
/-- The state with a track's armed queue replaced. -/
def State.setArmed (s : State) (t : Track) (l : List GroupNo) : State := { s with armed := s.armed.set t l }
/-- A track record. -/
def State.track (s : State) (t : Track) : TrackRec := s.tracks.get t
/-- The state with a track record replaced. -/
def State.setTrack (s : State) (t : Track) (x : TrackRec) : State := { s with tracks := s.tracks.set t x }
/-- A panel input. -/
def State.input (s : State) (i : PanelInput) : Panel := s.panel.get i
/-- The state with a panel input replaced. -/
def State.setInput (s : State) (i : PanelInput) (x : Panel) : State := { s with panel := s.panel.set i x }
/-- The over/under status of a track. -/
def State.statusOf (s : State) (t : Track) : Status := s.status.get t
/-- The state with a track's over/under status replaced. -/
def State.setStatus (s : State) (t : Track) (x : Status) : State := { s with status := s.status.set t x }
/-- A presenter record. -/
def State.presenter (s : State) (p : Pos) : Presenter := s.presenters.get p
/-- The state with a presenter record replaced. -/
def State.setPresenter (s : State) (p : Pos) (x : Presenter) : State := { s with presenters := s.presenters.set p x }
/-- A route entry. -/
def State.route (s : State) (n : RouteNo) : Route := s.routes.get n
/-- The state with a route entry replaced. -/
def State.setRoute (s : State) (n : RouteNo) (x : Route) : State := { s with routes := s.routes.set n x }
/-- A channel record. -/
def State.channel (s : State) (c : Chan) : Channel := s.channels.get c
/-- The state with a channel record replaced. -/
def State.setChannel (s : State) (c : Chan) (x : Channel) : State := { s with channels := s.channels.set c x }
/-- A presenter light. -/
def State.light (s : State) (p : Pos) : Light := s.lights.get p
/-- The state with a presenter light replaced. -/
def State.setLight (s : State) (p : Pos) (x : Light) : State := { s with lights := s.lights.set p x }
/-- The state with the firing list replaced. -/
def State.setFiring (s : State) (l : List Firing) : State := { s with firing := l }
/-- The state with the cue scheduler's completion list replaced. -/
def State.setCuesDone (s : State) (l : List CueDone) : State := { s with cuesDone := l }
/-- The state with the presenter unit's completion list replaced. -/
def State.setReadsDone (s : State) (l : List ReadDone) : State := { s with readsDone := l }
/-- The state with the event flags replaced. -/
def State.setFlags (s : State) (f : EventSet) : State := { s with flags := f }
/-- The state with the list of outstanding frame work replaced. -/
def State.setDue (s : State) (l : List FrameWork) : State := { s with due := l }
/-- The state with the marks of takes made ahead of a sequencer's frame work replaced. -/
def State.setCut (s : State) (p : PerTrack Bool) : State := { s with cut := p }

/-- What a track's sequencer looks at in its frame work of the last frame event. -/
def State.look (s : State) (t : Track) : Look := s.looks.get t
/-- The state with what the sequencers look at replaced. -/
def State.setLooks (s : State) (p : PerTrack Look) : State := { s with looks := p }

/-- The sending side of a gallery link. -/
def State.tx (s : State) : Link → Transmit
  | .device c => s.deviceTx.get c
  | .prompter => s.prompterTx
  | .display => s.displayTx

/-- The state with the sending side of a gallery link replaced. -/
def State.setTx (s : State) : Link → Transmit → State
  | .device c, x => { s with deviceTx := s.deviceTx.set c x }
  | .prompter, x => { s with prompterTx := x }
  | .display, x => { s with displayTx := x }

/-- The receiver of a gallery link. -/
def State.rx (s : State) : RxLink → Receiver
  | .device c => s.deviceRx.get c
  | .prompter => s.prompterRx

/-- The state with the receiver of a gallery link replaced. -/
def State.setRx (s : State) : RxLink → Receiver → State
  | .device c, x => { s with deviceRx := s.deviceRx.set c x }
  | .prompter, x => { s with prompterRx := x }

/-! ### Frame values (R63) -/

/-- The signed difference X − Y of two frame values, from −2,147,483,648 to 2,147,483,647 (R63). -/
def frameDiff (x y : Frame) : Int := (x - y).toInt

/-- A frame value and a duration, mod 2^32 (R63). -/
def frameAdd (x : Frame) (n : Nat) : Frame := x + BitVec.ofNat 32 n

/-- A frame value less a duration, mod 2^32 (R63). -/
def frameSub (x : Frame) (n : Nat) : Frame := x - BitVec.ofNat 32 n

/-- A stored frame value is reached when (SFC − A) mod 2^32 is less than 2^31 (R63). -/
def State.reached (s : State) (a : Frame) : Bool := decide ((s.sfc - a).toNat < 2 ^ 31)

/-- A stored frame value is reached for frame work: by the SFC, and by the SFC that the frame event left. What a TIME.SET has moved the
SFC past since is reached at the next frame event, and what it has moved it back before waits again (R68). DEDUCED
(notes/assumptions/16.md). -/
def State.reachedAtWork (s : State) (a : Frame) : Bool := s.reached a && decide ((s.counted - a).toNat < 2 ^ 31)

/-! ### Item counters (R5, R6) -/

/-- The next revision: it wraps from 65,535 to 1 (R5). -/
def nextRevision (r : Word16) : Word16 := if r = 0xFFFF#16 then 1 else r + 1

/-- The next airing: it wraps from 65,535 to 0 (R6). -/
def nextAiring (a : Word16) : Word16 := a + 1

/-- The item with its revision advanced. -/
def Item.advanceRevision (x : Item) : Item := { x with revision := nextRevision x.revision }

/-- The item with its airing advanced. -/
def Item.advanceAiring (x : Item) : Item := { x with airing := nextAiring x.airing }

/-- The slot freed: every field but revision and airing takes the value of R3's column "Free". -/
def Item.freed (x : Item) : Item := { revision := x.revision, airing := x.airing }

/-- The item in a slot is live (R1). -/
def Item.isLive (x : Item) : Bool := decide (x.condition = .live)

/-! ### The item table: slots, pools and the story-key map (R1, R8, R11, R30) -/

/-- The lowest-numbered free slot (R1). -/
def State.lowestFree (s : State) : Option Slot :=
  (s.slots.entries.find? (fun e => decide (e.2.condition = .free))).map (·.1)

/-- How many slots are in a condition (R1). -/
def State.countSlots (s : State) (c : Condition) : Nat := (s.slots.cells.filter (fun x => decide (x.condition = c))).length

/-- The cue entries that a staged edit holds besides those of reserved slots: those of a staged CUES (R11). -/
def StagedEdit.entries (e : StagedEdit) : Nat :=
  match e.body with
  | .cues l => l.length
  | _ => 0

/-- The cue entries in use: the lists of live items and staged slots, and the new lists of staged CUES (R11). -/
def State.entriesInUse (s : State) : Nat :=
  (s.slots.cells.map (fun x => x.cues.length)).sum + (s.groups.cells.map (fun g => (g.edits.map StagedEdit.entries).sum)).sum

/-- The cue entries free (R11). -/
def State.freeEntries (s : State) : Nat := Config.poolEntries - s.entriesInUse

/-- The staging entries in use: the total length of the four lists (R30). -/
def State.stagingInUse (s : State) : Nat := (s.groups.cells.map (fun g => g.edits.length)).sum

/-- The staging entries free (R30). -/
def State.freeStaging (s : State) : Nat := Config.stagingEntries - s.stagingInUse

/-- The story-key map: one entry for each live item, its key and its slot (R8). It is held once, in the records. -/
def State.keyMap (s : State) : List (Word32 × Slot) :=
  (s.slots.entries.filter (fun e => e.2.isLive)).map (fun e => (e.2.fields.key, e.1))

/-- The slot of the live item that holds a key (R8, R21). -/
def State.findKey (s : State) (key : Word32) : Option Slot :=
  (s.slots.entries.find? (fun e => e.2.isLive && decide (e.2.fields.key = key))).map (·.1)

/-- A key is held by a live item other than the one named (R8). -/
def State.keyHeldByOther (s : State) (key : Word32) (named : Option Slot) : Bool :=
  s.slots.entries.any (fun e => e.2.isLive && decide (e.2.fields.key = key) && decide (named ≠ some e.1))

/-- An order with an item put at the head, or immediately after an anchor (R9). -/
def insertAfter (anchor : Option Slot) (i : Slot) : List Slot → List Slot
  | [] => [i]
  | x :: l =>
    match anchor with
    | none => i :: x :: l
    | some a => if x = a then x :: i :: l else x :: insertAfter (some a) i l

/-! ### Putting a frame on a gallery link (R164) -/

/-- A frame made for a link: sent at once when the link is idle, behind the others otherwise, and discarded when 64
wait (R164). DEDUCED (notes/assumptions/9.md): the frame being sent is not one of the 64. -/
def Transmit.push (x : Transmit) (f : OutFrame) : Transmit :=
  match x.sending with
  | none => { x with sending := some f }
  | some _ => if x.queue.length < Config.maxTransmit then { x with queue := x.queue ++ [f] } else x

/-- The frame being sent is finished, and the next is taken from the queue (R164). -/
def Transmit.sent (x : Transmit) : Transmit := { sending := x.queue.head?, queue := x.queue.tail }

/-- A frame is made for a gallery link. -/
def State.emit (s : State) (k : Link) (f : OutFrame) : State := s.setTx k ((s.tx k).push f)

end Sys2Proof.Machine
end

