-- ==== Sys2Proof/Machine/Flags.lean ====
section
/-! DEFINITION. The event flags and their mask, the lines ATTN# and RDY, and the summary status byte (R149 to R156). -/

namespace Sys2Proof.Machine

/-- One flag of a set. -/
def EventSet.get (f : EventSet) : Event → Bool
  | .takeA => f.takeA
  | .takeB => f.takeB
  | .timingA => f.timingA
  | .timingB => f.timingB
  | .cueFail => f.cueFail
  | .channelFault => f.channelFault
  | .groupDone => f.groupDone
  | .rateReseed => f.rateReseed
  | .reference => f.reference
  | .resetSeen => f.resetSeen

/-- The set with one flag made yes. -/
def EventSet.put (f : EventSet) : Event → EventSet
  | .takeA => { f with takeA := true }
  | .takeB => { f with takeB := true }
  | .timingA => { f with timingA := true }
  | .timingB => { f with timingB := true }
  | .cueFail => { f with cueFail := true }
  | .channelFault => { f with channelFault := true }
  | .groupDone => { f with groupDone := true }
  | .rateReseed => { f with rateReseed := true }
  | .reference => { f with reference := true }
  | .resetSeen => { f with resetSeen := true }

/-- The ten flags in bit order, bit 0 first (section 11.2). -/
def EventSet.bits (f : EventSet) : List Bool :=
  [f.takeA, f.takeB, f.timingA, f.timingB, f.cueFail, f.channelFault, f.groupDone, f.rateReseed, f.reference, f.resetSeen]

/-- The set a two-byte mask gives (section 11.2). -/
def EventSet.ofNat (n : Nat) : EventSet :=
  ⟨n.testBit 0, n.testBit 1, n.testBit 2, n.testBit 3, n.testBit 4, n.testBit 5, n.testBit 6, n.testBit 7, n.testBit 8, n.testBit 9⟩

/-- Some flag is set whose mask entry is yes (R156). -/
def EventSet.meets (f m : EventSet) : Bool :=
  (f.takeA && m.takeA) || (f.takeB && m.takeB) || (f.timingA && m.timingA) || (f.timingB && m.timingB) ||
  (f.cueFail && m.cueFail) || (f.channelFault && m.channelFault) || (f.groupDone && m.groupDone) ||
  (f.rateReseed && m.rateReseed) || (f.reference && m.reference) || (f.resetSeen && m.resetSeen)

/-- A block raises an event flag: a flag already set stays set (R156). -/
def State.raise (s : State) (e : Event) : State := s.setFlags (s.flags.put e)

/-- The take event of a track (R46). -/
def takeEvent : Track → Event
  | .a => .takeA
  | .b => .takeB

/-- The timing event of a track (R76). -/
def timingEvent : Track → Event
  | .a => .timingA
  | .b => .timingB

/-- ATTN# is active (R156); it is inactive while the part is held in reset (R160). -/
def State.attnActive (s : State) : Bool := !s.held && s.flags.meets s.mask

/-- RDY is active while the response buffer is READY (R152); it is inactive while the part is held in reset (R160). -/
def State.rdyActive (s : State) : Bool :=
  match s.buffer with
  | .ready _ => !s.held
  | _ => false

/-- The response buffer is FORMING or READY (R154). -/
def State.busy (s : State) : Bool :=
  match s.buffer with
  | .empty => false
  | _ => true

/-- The fault flag of at least one channel is set (R154). -/
def State.anyFault (s : State) : Bool := s.channels.cells.any (·.faultFlag)

/-- At least one group of either track is ARMED (R154). -/
def State.anyArmed (s : State) : Bool := s.groups.cells.any (fun g => decide (g.state = .armed))

/-- Bit 7 first: a byte of eight flags. -/
def flagByte (b7 b6 b5 b4 b3 b2 b1 b0 : Bool) : Byte :=
  BitVec.ofNat 8 (b7.toNat * 128 + b6.toNat * 64 + b5.toNat * 32 + b4.toNat * 16 + b3.toNat * 8 + b2.toNat * 4 + b1.toNat * 2 + b0.toNat)

/-- The summary status byte, formed from the state now standing (R154, section 11.2). -/
def State.summary (s : State) : Byte :=
  flagByte s.attnActive s.flags.resetSeen s.anyFault (decide (s.reference = .flywheel))
    (s.track .a).onAir.isSome (s.track .b).onAir.isSome s.anyArmed s.busy

end Sys2Proof.Machine
end

