-- ==== Sys2Proof/Machine/Routes.lean ====
section
/-! DEFINITION. Target routing: matching, resolution and what ROUTE.TEST finds (R107 to R111, R115). -/

namespace Sys2Proof.Machine

/-- The entry matches the target code: the two agree at every bit where the mask holds a 0 (R108). -/
def Route.matches (r : Route) (target : Word16) : Bool := decide ((target ^^^ r.base) &&& ~~~ r.mask = 0)

/-- The entry permits the track and the action (R109 conditions 3 and 4). -/
def Route.permits (r : Route) (action : Action) (t : Track) : Bool :=
  r.tracks.getLsbD (trackCode t) && r.actions.getLsbD action.code

/-- The entry resolves the cue (R109). -/
def Route.resolves (r : Route) (target : Word16) (action : Action) (t : Track) : Bool :=
  r.enabled && r.matches target && r.permits action t

/-- The first entry, in ascending order, that resolves the cue, or else the enabled default route (R109). -/
def State.resolve (s : State) (target : Word16) (action : Action) (t : Track) : Option Resolved :=
  match s.routes.entries.find? (fun e => e.2.resolves target action t) with
  | some e => some ⟨.entry e.1, e.2.delivery⟩
  | none => if s.defaultRoute.enabled then some ⟨.default, s.defaultRoute.delivery⟩ else none

/-- The lowest-numbered entry that matched the target and was passed over for its track or action, among the entries
examined (R115). An enabled entry that matches and permits ends the examination. -/
def firstPassedOver (target : Word16) (action : Action) (t : Track) : List (RouteNo × Route) → Option RouteNo
  | [] => none
  | (n, r) :: l =>
    if r.resolves target action t then none
    else if r.enabled && r.matches target then some n
    else firstPassedOver target action t l

end Sys2Proof.Machine
end

