-- ==== Sys2Proof/Machine/CueOps.lean ====
section
/-! DEFINITION. The cue records in the items, and the firing list (R91 to R93, R98, R102). -/

namespace Sys2Proof.Machine

/-- The cue at an index of an item's list. -/
def State.cue? (s : State) (i : Slot) (k : Nat) : Option Cue := (s.slot i).cues[k]?

/-- The state with the cue at an index of an item's list changed. -/
def State.modifyCue (s : State) (i : Slot) (k : Nat) (f : Cue → Cue) : State :=
  s.setSlot i { s.slot i with cues := (s.slot i).cues.modify k f }

/-- The cue's state changed, and nothing else of it. -/
def State.setCueState (s : State) (i : Slot) (k : Nat) (x : CueState) : State := s.modifyCue i k (fun q => { q with state := x })

/-- The cue as it enters a list, or as it stands when set PENDING: the host's fields kept, the rest cleared (R91). -/
def Cue.pend (q : Cue) : Cue := { spec := q.spec }

/-- The entry a list takes for a cue the host gives (R91). -/
def CueSpec.fresh (c : CueSpec) : Cue := { spec := c }

/-- A cue becomes FAILED with a cause: its item's cue fault becomes yes and CUE_FAIL is raised (R93). -/
def State.failCue (s : State) (i : Slot) (k : Nat) (cause : FailCause) : State :=
  let s1 := s.modifyCue i k (fun q => { q with state := .failed, failCause := some cause })
  (s1.setSlot i { s1.slot i with cueFault := true }).raise .cueFail

/-- One firing-list entry stands before another: by the signed difference of their fire frames, then by slot, then by
cue index (R98). -/
def Firing.before (x y : Firing) : Bool :=
  decide (frameDiff x.fire y.fire < 0) ||
    (decide (x.fire = y.fire) && (decide (x.slot < y.slot) || (decide (x.slot = y.slot) && decide (x.index < y.index))))

/-- A cue joins the firing list at its place: before the first entry that it stands before, or at the end (R98). R98 does not say where
a cue stands whose fire frame the signed difference does not order against another's, 2^31 frames away, or orders in a ring with
two others: there too it stands before the first entry it precedes (DESIGN CHOICE: notes/assumptions/10.md). -/
def insertFiring (x : Firing) : List Firing → List Firing
  | [] => [x]
  | y :: l => if x.before y then x :: y :: l else y :: insertFiring x l

/-- A cue leaves the firing list (R98). -/
def removeFiring (i : Slot) (k : Nat) (l : List Firing) : List Firing :=
  l.filter (fun x => !(decide (x.slot = i) && decide (x.index = k)))

/-- An item's cues set PENDING, those a test selects (R102). -/
def Item.pendCues (x : Item) (which : Cue → Bool) : Item :=
  { x with cues := x.cues.map (fun q => if which q then q.pend else q) }

end Sys2Proof.Machine
end

