-- ==== Sys2Proof/Machine/Channels.lean ====
section
/-! DEFINITION. The channel units: offers and the wait queue, grants, the end of a command, faults and frame work (chapter 8). -/

namespace Sys2Proof.Machine

/-! ### Offers, the wait queue and grants (R118 to R121, R125) -/

/-- The actions a kind allows (R118). -/
def ChannelKind.allows : ChannelKind → Action → Bool
  | .none, _ => false
  | .clip, .load => true
  | .clip, .play => true
  | .clip, .stop => true
  | .clip, _ => false
  | .gfx, .load => true
  | .gfx, .in_ => true
  | .gfx, .out => true
  | .gfx, _ => false
  | .audio, .load => true
  | .audio, .play => true
  | .audio, .stop => true
  | .audio, _ => false
  | .aux, .pulse => true
  | .aux, _ => false

/-- The four checks of an offer, in order; `none` accepts the cue (R119). -/
def Channel.refuses (x : Channel) (a : Action) : Option FailCause :=
  if x.kind = .none then some .offline
  else if !x.kind.allows a then some .kind
  else if x.state = .faulted ∧ x.faultMode = .latch then some .channelFault
  else if Config.maxQueue ≤ x.queue.length then some .queueFull
  else none

/-- An accepted cue stands after every cue whose fire frame is not later than its own, and before the first whose fire
frame is later (R120). Where the signed difference orders three fire frames in a ring, or two 2^31 frames apart in neither way, the two
parts of that can disagree, and the second is taken (DESIGN CHOICE: notes/assumptions/10.md). -/
def enqueue (q : Queued) : List Queued → List Queued
  | [] => [q]
  | x :: l => if frameDiff x.fire q.fire > 0 then q :: x :: l else x :: enqueue q l

/-- The command a granted cue becomes (R121 step 3). -/
def Queued.command (q : Queued) (tag : BitVec 4) (now : Frame) : Command :=
  { cue := q.cue, track := q.track, action := q.action, param := q.param, mode := q.mode, dwell := q.dwell
    answerTimeout := q.answerTimeout, guard := q.guard, tag := tag, sendFrame := now, busy := 0 }

/-- The command is done at its send: TIMED or EARLY with dwell 0 (R121 step 6). -/
def Queued.doneAtSend (q : Queued) : Bool := (decide (q.mode = .timed) || decide (q.mode = .early)) && decide (q.dwell = 0)

/-- A count of the channel that begins now is marked when the channel's frame work of the last frame event is still to be done: the
count is of the frame events after its start, and that frame event is not one of them (R122, R124; DESIGN CHOICE:
notes/assumptions/3.md). -/
def State.beginsEarly (s : State) (c : Chan) : Bool := decide (.channel c ∈ s.due)

/-- Steps 1 to 5 of a grant: the head leaves the queue, its cue becomes SENT, the tag advances, the slot is filled, the
state becomes BUSY and a COMMAND frame goes out (R121). -/
def State.send (s : State) (c : Chan) (q : Queued) (rest : List Queued) : State :=
  let x := s.channel c
  let tag := x.tag + 1
  ((s.setCueState q.cue.slot q.cue.index .sent).setChannel c
    { x with
      queue := rest, tag := tag, command := some (q.command tag s.sfc), state := .busy, begun := s.beginsEarly c }).emit (.device c)
      (.command tag q.action q.param q.track)

/-- A completion is handed to the cue scheduler (R103, R125). -/
def State.handCue (s : State) (d : CueDone) : State := s.setCuesDone (s.cuesDone ++ [d])

/-- The command slot is emptied and its completion handed (R125 step 1). -/
def State.emptySlot (s : State) (c : Chan) (o : CueOutcome) : State :=
  match (s.channel c).command with
  | none => s
  | some k => (s.setChannel c { s.channel c with command := none }).handCue ⟨k.cue, o⟩

/-- The channel rests for the guard of the cue just ended, or is READY at once (R125 step 3). -/
def State.rest (s : State) (c : Chan) (guard : Nat) : State :=
  if guard = 0 then s.setChannel c { s.channel c with state := .ready }
  else s.setChannel c { s.channel c with state := .guard, guard := guard, begun := s.beginsEarly c }

/-- The arbiter of a READY channel grants the head of its queue; a command done at its send with guard 0 leaves the channel
READY, and the next head is granted (R121, R125). `fuel` bounds the chain by the length of the queue. -/
def State.grantChain (c : Chan) : Nat → State → State
  | 0, s => s
  | fuel + 1, s =>
    if (s.channel c).state = .ready then
      match (s.channel c).queue with
      | [] => s
      | q :: rest =>
        let s1 := s.send c q rest
        if q.doneAtSend then State.grantChain c fuel ((s1.emptySlot c .done).rest c q.guard) else s1
    else s

/-- The arbiter acts on the queue as it stands (R121). -/
def State.grant (s : State) (c : Chan) : State := State.grantChain c (s.channel c).queue.length s

/-- A command ends, other than by a fault entry or a configuration: its completion is handed, its guard runs, and with
guard 0 the head of the queue is granted (R125). -/
def State.endCommand (s : State) (c : Chan) (o : CueOutcome) : State :=
  match (s.channel c).command with
  | none => s
  | some k => ((s.emptySlot c o).rest c k.guard).grant c

/-- The copy of a cue that an offer hands to a channel (R99). -/
def queuedOf (i : Slot) (k : Nat) (x : Item) (q : Cue) (d : Delivery) (fire : Frame) : Queued :=
  { cue := ⟨i, x.airing, k⟩, track := x.track, action := q.spec.action, param := q.spec.param, fire := fire, mode := d.mode
    dwell := d.dwell, answerTimeout := d.answerTimeout, guard := d.guard, tolerance := d.tolerance }

/-- An offer takes the cue out of the firing list and hands it to the channel of its copy, which accepts it into its queue,
and grants at once if it is READY, or refuses it (R98, R99, R119). -/
def State.offer (s : State) (e : Firing) : State :=
  let s0 := s.setFiring (removeFiring e.slot e.index s.firing)
  match s.cue? e.slot e.index with
  | none => s0
  | some q =>
    match q.resolved with
    | none => s0
    | some r =>
      let c := r.delivery.channel
      match (s.channel c).refuses q.spec.action with
      | some cause => s0.failCue e.slot e.index cause
      | none =>
        let s1 := s0.setCueState e.slot e.index .queued
        (s1.setChannel c { s1.channel c with
          queue := enqueue (queuedOf e.slot e.index (s.slot e.slot) q r.delivery e.fire) (s1.channel c).queue }).grant c

/-- A cue is removed from its channel's wait queue, and the arbiter acts on the queue as it now stands (R100). -/
def State.withdraw (s : State) (c : Chan) (i : Slot) (k : Nat) : State :=
  (s.setChannel c { s.channel c with
    queue := (s.channel c).queue.filter (fun q => !(decide (q.cue.slot = i) && decide (q.cue.index = k))) }).grant c

/-- Queued cues fail with a cause, in queue order (R99). -/
def State.failQueued (s : State) (l : List Queued) (cause : FailCause) : State :=
  l.foldl (fun s q => s.failCue q.cue.slot q.cue.index cause) s

/-- The whole wait queue is removed and its cues fail (R130, R134). -/
def State.failQueue (s : State) (c : Chan) (cause : FailCause) : State :=
  (s.setChannel c { s.channel c with queue := [] }).failQueued (s.channel c).queue cause

/-! ### Faults (R129 to R133) -/

/-- The cause of failure of the cue in the slot when a fault ends it (R129 step 3). -/
def FaultCause.failCause : FaultCause → FailCause
  | .timeout => .timeout
  | _ => .channelFault

/-- The fault mode ends the command in the slot (R129 step 3). -/
def FaultMode.endsCommand : FaultMode → Bool
  | .latch => true
  | .retry => true
  | _ => false

/-- The fault mode sets the flag and raises CHANNEL_FAULT (R129 step 2). -/
def FaultMode.reports : FaultMode → Bool
  | .ignore => false
  | _ => true

/-- Steps 1 and 2 of a fault entry (R129). -/
def State.noteFault (s : State) (c : Chan) (cause : FaultCause) : State :=
  let x := s.channel c
  if x.faultMode.reports then
    (s.setChannel c { x with silent := 0, faultFlag := true, faultCause := some cause }).raise .channelFault
  else s.setChannel c { x with silent := 0 }

/-- Step 3 of a fault entry: a cue in the slot ends FAILED and a running guard ends (R129). -/
def State.dropCommand (s : State) (c : Chan) (cause : FaultCause) : State :=
  let s1 := s.emptySlot c (.failed cause.failCause)
  s1.setChannel c { s1.channel c with guard := 0 }

/-- A fault entry with a cause, in the fault mode in force; a FAULTED channel enters none (R129 to R133). -/
def State.enterFault (s : State) (c : Chan) (cause : FaultCause) : State :=
  if (s.channel c).state = .faulted then s
  else
    let s1 := s.noteFault c cause
    match (s.channel c).faultMode with
    | .latch =>
      let s2 := s1.dropCommand c cause
      (s2.setChannel c { s2.channel c with state := .faulted }).failQueue c .channelFault
    | .retry =>
      let s2 := s1.dropCommand c cause
      s2.setChannel c { s2.channel c with
        state := .recovering, recovery := (s2.channel c).retryInterval, begun := s.beginsEarly c }
    | .report => s1
    | .ignore => s1

/-- An ANSWER command's timeout is reached: in REPORT and IGNORE mode the command first ends with its guard, in LATCH and
RETRY mode the fault entry ends it (R124). -/
def State.timeOut (s : State) (c : Chan) : State :=
  if (s.channel c).faultMode.endsCommand then s.enterFault c .timeout
  else (s.endCommand c (.failed .timeout)).enterFault c .timeout

/-! ### Frame work (R122) -/

/-- A queued cue is past its lateness tolerance (R123). -/
def State.agedOut (s : State) (q : Queued) : Bool := decide (frameDiff s.sfc q.fire > q.tolerance)

/-- Step 1: queued cues past their tolerance fail LATE, in queue order (R123). -/
def State.ageQueue (s : State) (c : Chan) : State :=
  let l := (s.channel c).queue
  (s.setChannel c { s.channel c with queue := l.filter (fun q => !s.agedOut q) }).failQueued (l.filter s.agedOut) .late

/-- The command's dwell is reached: TIMED and EARLY (R124). -/
def Command.dwellReached (k : Command) : Bool := (decide (k.mode = .timed) || decide (k.mode = .early)) && decide (k.dwell ≤ k.busy)

/-- The command's answer timeout is reached: ANSWER (R124). -/
def Command.timeoutReached (k : Command) : Bool := decide (k.mode = .answer) && decide (k.answerTimeout ≤ k.busy)

/-- The command with its busy count advanced. -/
def Command.tick (k : Command) : Command := { k with busy := k.busy + 1 }

/-- The channel is in a state whose count its frame work advances: it was so when the frame event was made (R122). -/
def Channel.counting (x : Channel) (st : ChannelState) : Bool := decide (x.state = st) && !x.begun

/-- The channel's frame work begins: a count that began before it in the same frame event is counted from the next one on (R122, R124). -/
def State.beginWork (s : State) (c : Chan) : State := s.setChannel c { s.channel c with begun := false }

/-- Step 2: in BUSY the busy count advances, and the dwell or the timeout may be reached (R122, R124). `running`: the count was running
when the frame event was made. -/
def State.slotWork (s : State) (c : Chan) (running : Bool) : State :=
  if running = true ∧ (s.channel c).state = .busy then
    match (s.channel c).command with
    | none => s
    | some k =>
      let s1 := s.setChannel c { s.channel c with command := some k.tick }
      if k.tick.dwellReached then s1.endCommand c .done
      else if k.tick.timeoutReached then s1.timeOut c
      else s1
  else s

/-- Step 3: a guard that was running when the frame event was made is counted down (R122). -/
def State.guardWork (s : State) (c : Chan) (running : Bool) : State :=
  let x := s.channel c
  if running = true ∧ x.state = .guard then
    s.setChannel c { x with guard := x.guard - 1, state := if x.guard ≤ 1 then .ready else .guard }
  else s

/-- Step 4: a recovery that was running when the frame event was made is counted down (R122, R131). -/
def State.recoveryWork (s : State) (c : Chan) (running : Bool) : State :=
  let x := s.channel c
  if running = true ∧ x.state = .recovering then
    s.setChannel c { x with recovery := x.recovery - 1, state := if x.recovery ≤ 1 then .ready else .recovering }
  else s

/-- The states in which silence is counted (R128). -/
def ChannelState.counted : ChannelState → Bool
  | .ready => true
  | .busy => true
  | .guard => true
  | _ => false

/-- The silent count one on; it stays at 1,023 (R128). -/
def Channel.nextSilent (x : Channel) : Nat := if x.silent < 1023 then x.silent + 1 else 1023

/-- The next count of silence reaches the limit (R128). -/
def Channel.fallsSilent (x : Channel) : Bool := x.state.counted && decide (x.silentLimit ≠ 0) && decide (x.silentLimit ≤ x.nextSilent)

/-- Step 6: the silent count advances and is compared with the limit (R128). -/
def State.silenceWork (s : State) (c : Chan) : State :=
  let x := s.channel c
  if x.state.counted then
    let s1 := s.setChannel c { x with silent := x.nextSilent }
    if x.fallsSilent then s1.enterFault c .silent else s1
  else s

/-- The next poll count reaches the interval of a READY channel (R127). -/
def Channel.pollsNow (x : Channel) : Bool :=
  decide (x.state = .ready) && decide (x.pollInterval ≠ 0) && decide (x.pollInterval ≤ x.poll + 1)

/-- Step 7: the poll count advances and a POLL may be sent (R127). -/
def State.pollWork (s : State) (c : Chan) : State :=
  let x := s.channel c
  if x.pollsNow then (s.setChannel c { x with poll := 0 }).emit (.device c) .poll
  else if x.state = .ready ∧ x.pollInterval ≠ 0 then s.setChannel c { x with poll := x.poll + 1 }
  else s

/-- The state after steps 1 and 2 of a channel's frame work. -/
def State.afterSlotWork (s : State) (c : Chan) : State :=
  ((s.beginWork c).ageQueue c).slotWork c ((s.channel c).counting .busy)

/-- The state after steps 1 to 5 of a channel's frame work. -/
def State.afterGrantWork (s : State) (c : Chan) : State :=
  (((s.afterSlotWork c).guardWork c ((s.channel c).counting .guard)).recoveryWork c
    ((s.channel c).counting .recovering)).grant c

/-- A channel's frame work: its seven steps in order. An OFFLINE channel does none, a FAULTED channel only the first (R122). -/
def State.channelWork (s : State) (c : Chan) : State :=
  match (s.channel c).state with
  | .offline => s.beginWork c
  | .faulted => (s.beginWork c).ageQueue c
  | _ => ((s.afterGrantWork c).silenceWork c).pollWork c

/-! ### Frames from the device (R124, R126) -/

/-- A valid frame is heard (R126). -/
def State.hear (s : State) (c : Chan) : State := s.setChannel c { s.channel c with silent := 0 }

/-- The command in the slot of a BUSY channel, when a tag is its own (R126). -/
def State.answered (s : State) (c : Chan) (tag : Byte) : Option Command :=
  if (s.channel c).state = .busy then (s.channel c).command.filter (fun k => decide (tag = k.tag.setWidth 8)) else none

/-- ACCEPT: heard, and with the slot's tag it ends an ANSWER or EARLY command DONE (R124, R126). -/
def State.takeAccept (s : State) (c : Chan) (tag : Byte) : State :=
  match s.answered c tag with
  | some k => if k.mode = .timed then s.hear c else (s.hear c).endCommand c .done
  | none => s.hear c

/-- REFUSE: heard, and with the slot's tag it ends the command FAILED REFUSED (R124, R126). -/
def State.takeRefuse (s : State) (c : Chan) (tag : Byte) : State :=
  match s.answered c tag with
  | some _ => (s.hear c).endCommand c (.failed .refused)
  | none => s.hear c

/-- STATUS: heard, and ERROR enters a DEVICE_ERROR fault, but in FAULTED (R126). -/
def State.takeStatus (s : State) (c : Chan) (value : Byte) : State :=
  if value = 2 then (s.hear c).enterFault c .deviceError else s.hear c

/-! ### Requests on a channel (R134, R135) -/

/-- The fault clear of one channel (R135). -/
def State.clearChannel (s : State) (c : Chan) : State :=
  let x := { s.channel c with faultFlag := false, silent := 0 }
  match (s.channel c).state with
  | .offline => s
  | .faulted => (s.setChannel c { x with state := .ready, recovery := 0 }).grant c
  | .recovering => (s.setChannel c { x with state := .ready, recovery := 0 }).grant c
  | _ => s.setChannel c x

/-- The panel CLEAR press: the fault clear of every channel (R58, R135). -/
def State.clearAll (s : State) : State := (List.finRange 12).foldl State.clearChannel s

/-- A channel is given a kind (R134). -/
def State.giveKind (s : State) (c : Chan) (k : ChannelKind) : State :=
  if k = .none then
    if (s.channel c).state = .offline then s.setChannel c { s.channel c with kind := .none }
    else
      let s1 := (s.emptySlot c (.failed .offline)).failQueue c .offline
      s1.setChannel c { s1.channel c with
        kind := .none, state := .offline, faultFlag := false, silent := 0, poll := 0, guard := 0, recovery := 0 }
  else if (s.channel c).state = .offline then
    s.setChannel c { s.channel c with kind := k, state := .ready, silent := 0, poll := 0, faultFlag := false }
  else s.setChannel c { s.channel c with kind := k }

/-- A channel is given a fault mode: LATCH on a FAULTED channel fails its queued cues (R134). -/
def State.giveFaultMode (s : State) (c : Chan) (m : FaultMode) : State :=
  let s1 := s.setChannel c { s.channel c with faultMode := m }
  if m = .latch ∧ (s.channel c).state = .faulted then s1.failQueue c .channelFault else s1

end Sys2Proof.Machine
end

