-- ==== Sys2Proof/Machine/Cues.lean ====
section
/-! DEFINITION. The cue scheduler: arming, fire frames, offers, abandonment and completion (R94 to R104). -/

namespace Sys2Proof.Machine

/-! ### Arming (R94, R95) -/

/-- The nominal fire frame: the arming frame for READY; S + offset − preroll for START, with `base` the start S;
S_in − preroll for END, with `base` the start S_in of the incoming item (R95). -/
def nominalFire (spec : CueSpec) (base now : Frame) (preroll : Nat) : Frame :=
  match spec.phase with
  | .ready => now
  | .start => frameSub (frameAdd base spec.offset) preroll
  | .ending => frameSub base preroll

/-- The cue as it becomes ARMED: its copy, and its actual fire frame, which is the arming frame when the nominal frame has
passed, with the distance it lies behind, saturated at 255 (R94, R95). The distance is counted mod 2^32, so that it is whole where
the signed difference is −2^31. -/
def Cue.arm (q : Cue) (r : Resolved) (nominal now : Frame) : Cue :=
  if frameDiff nominal now < 0 then
    { q with state := .armed, resolved := some r, fire := some now, lateFired := true
             lateness := min 255 (now - nominal).toNat }
  else { q with state := .armed, resolved := some r, fire := some nominal, lateFired := false, lateness := 0 }

/-- The cue is of the phase being armed and PENDING (R94). -/
def Cue.arms (q : Cue) (ph : Phase) : Bool := decide (q.spec.phase = ph) && decide (q.state = .pending)

/-- One cue of an arming: resolved and ARMED, or FAILED UNROUTED (R94). -/
def State.armCue (ph : Phase) (base : Frame) (i : Slot) (s : State) (k : Nat) : State :=
  match s.cue? i k with
  | none => s
  | some q =>
    if q.arms ph then
      match s.resolve q.spec.target q.spec.action (s.slot i).track with
      | none => s.failCue i k .unrouted
      | some r =>
        let nominal := nominalFire q.spec base s.sfc r.delivery.preroll
        let armed := q.arm r nominal s.sfc
        (s.modifyCue i k (fun _ => armed)).setFiring (insertFiring ⟨armed.fire.getD s.sfc, i, k⟩ s.firing)
    else s

/-- The firing-list entries of one arming whose fire frame is reached, in list order: those that were not in the list
before it (R98). -/
def State.reachedNew (s : State) (before : List Firing) : List Firing :=
  s.firing.filter (fun e => !before.contains e && s.reached e.fire)

/-- A phase of an item is armed: its cues in list order, and then those already reached are offered (R94, R98).
DEDUCED (notes/assumptions/10.md) in that all are armed before those reached are offered. -/
def State.armPhase (s : State) (ph : Phase) (base : Frame) (i : Slot) : State :=
  let s1 := (List.range (s.slot i).cues.length).foldl (State.armCue ph base i) s
  (s1.reachedNew s.firing).foldl State.offer s1

/-! ### The frame work of the cue scheduler (R98, R103) -/

/-- The completion passes the three checks: the slot is live, the airing is the item's, and the cue is SENT (R103). -/
def State.applies (s : State) (d : CueDone) : Bool :=
  (s.slot d.cue.slot).isLive && decide ((s.slot d.cue.slot).airing = d.cue.airing) &&
    (match s.cue? d.cue.slot d.cue.index with
     | some q => decide (q.state = .sent)
     | none => false)

/-- A completion is applied, or orphaned (R103, R104). -/
def State.takeCueDone (s : State) (d : CueDone) : State :=
  if s.applies d then
    match d.outcome with
    | .done => s.setCueState d.cue.slot d.cue.index .done
    | .failed cause => s.failCue d.cue.slot d.cue.index cause
  else s

/-- Every completion of the list is taken, from the head (R103). -/
def State.takeAllCueDone (s : State) : State := s.cuesDone.foldl State.takeCueDone (s.setCuesDone [])

/-- The cues of the firing list whose fire frame is reached at the frame event, in list order: a cue whose fire frame a TIME.SET has
moved the SFC past since stands ARMED until the next (R68, R98). -/
def State.reachedFiring (s : State) : List Firing := s.firing.filter (fun e => s.reachedAtWork e.fire)

/-- The frame work of the cue scheduler: the completions left in the list, then the offers (R98, R103). -/
def State.schedulerWork (s : State) : State :=
  let s1 := s.takeAllCueDone
  s1.reachedFiring.foldl State.offer s1

/-! ### Abandonment (R100, R101) -/

/-- A cue is abandoned: an ARMED one leaves the firing list, a QUEUED one its channel's queue (R100). -/
def State.abandonCue (i : Slot) (s : State) (k : Nat) : State :=
  match s.cue? i k with
  | none => s
  | some q =>
    match q.state with
    | .armed => (s.setCueState i k .abandoned).setFiring (removeFiring i k s.firing)
    | .queued =>
      let s1 := s.setCueState i k .abandoned
      match q.resolved with
      | some r => s1.withdraw r.delivery.channel i k
      | none => s1
    | _ => s

/-- The cues of an item that a test selects are abandoned, in list order (R100, R101). -/
def State.abandon (s : State) (i : Slot) (which : Cue → Bool) : State :=
  ((List.range (s.slot i).cues.length).filter (fun k => (((s.slot i).cues[k]?).map which).getD false)).foldl (State.abandonCue i) s

/-- The cues of one phase of an item are abandoned (R101). -/
def State.abandonPhase (s : State) (i : Slot) (ph : Phase) : State := s.abandon i (fun q => decide (q.spec.phase = ph))

/-- Every cue of an item is abandoned (R101). -/
def State.abandonAll (s : State) (i : Slot) : State := s.abandon i (fun _ => true)

end Sys2Proof.Machine
end

