-- ==== Sys2Proof/Machine/Timing.lean ====
section
/-! DEFINITION. Eligibility and the candidates of a track (R10, R44), and the timing engine's derived values and status
(R70 to R78). -/

namespace Sys2Proof.Machine

/-! ### Eligibility (R10, R44) -/

/-- The items standing after the track's ON_AIR item, or the whole order while nothing is on air (R10). -/
def State.afterOnAir (s : State) (t : Track) : List Slot :=
  match (s.track t).onAir with
  | none => s.order t
  | some o => ((s.order t).dropWhile (fun i => decide (i ≠ o))).drop 1

/-- An item standing where it could be made ready is a candidate: eligible, or the track's READY item, and not floated
(R10, R44). -/
def State.isCandidate (s : State) (t : Track) (i : Slot) : Bool :=
  !(s.slot i).fields.floated && (decide ((s.slot i).state = .planned) || decide ((s.track t).ready = some i))

/-- The candidates of a track, in rundown order (R44). -/
def State.candidates (s : State) (t : Track) : List Slot := (s.afterOnAir t).filter (s.isCandidate t)

/-! ### What acts from the next frame event (R14, R41, R42, R51, R52) -/

/-- The item on air of a track has auto yes (R51). -/
def State.airsAuto (s : State) (t : Track) : Bool :=
  match (s.track t).onAir with
  | some o => (s.slot o).fields.auto
  | none => false

/-- What a frame event gives a track's sequencer to look at: the take delay, the host hold, the auto field of the item on air, and
every item READY or eligible that has a hard-in, with its hard-in (R52). -/
def State.lookNow (s : State) (t : Track) : Look :=
  { takeDelay := (s.track t).takeDelay
    hostHold := (s.track t).hostHold
    auto := s.airsAuto t
    hardIns := (s.candidates t).filterMap (fun i => (s.slot i).fields.hardIn.map (fun h => ⟨i, h⟩)) }

/-- The hard-in by which the watch of a track sees an item, if it sees it (R52). -/
def State.watchedHardIn (s : State) (t : Track) (i : Slot) : Option Frame :=
  ((s.look t).hardIns.find? (fun w => decide (w.slot = i))).map (·.hardIn)

/-- A track's watch without the items that have ceased to be READY or eligible, and without an auto that has been set to no. -/
def State.lookKept (s : State) (t : Track) : Look :=
  { s.look t with
    auto := (s.look t).auto && s.airsAuto t
    hardIns := (s.look t).hardIns.filter (fun w => (s.candidates t).contains w.slot) }

/-- What an edit or a track reset finds watched: an item that it makes READY or eligible again, and an auto that it sets to yes again,
act from the next frame event (R51, R52). DEDUCED (notes/assumptions/16.md). -/
def State.keepWatch (s : State) : State := s.setLooks ⟨s.lookKept .a, s.lookKept .b⟩

/-! ### Durations (R70 to R72) -/

/-- floor((words × rate + 128) / 256) (R70). -/
def estimateOf (words rate : Nat) : Nat := (words * rate + 128) / 256

/-- The estimate E of a READ item (R70). -/
def State.estimate (s : State) (x : Item) : Option Nat :=
  match x.fields.kind with
  | .read =>
    some (match x.fields.presenter with
      | some p => estimateOf x.fields.words (s.presenter p).rate
      | none => x.fields.planned)
  | _ => none

/-- The base duration of an item (R71). -/
def State.base (s : State) (x : Item) : Nat := if x.fields.timed then x.fields.planned else (s.estimate x).getD x.fields.planned

/-- The elapsed of an ON_AIR item: SFC − S, from 0 to 16,777,215 (R71). -/
def State.elapsed (s : State) (x : Item) : Nat := min Config.maxElapsed (frameDiff s.sfc (x.start.getD s.sfc)).toNat

/-- The working duration D of an item (R72). -/
def State.working (s : State) (x : Item) : Option Nat :=
  match x.state with
  | .onAir => some (max (s.base x) (s.elapsed x))
  | .done => x.actual
  | .ready => some (s.base x)
  | .planned => some (s.base x)
  | _ => none

/-- The remaining frames of an ON_AIR item, D − elapsed (R72). -/
def State.remaining (s : State) (x : Item) : Nat := max (s.base x) (s.elapsed x) - s.elapsed x

/-! ### The projection (R73, R74) -/

/-- A projected item: its front time, its working duration and its gap. -/
structure Projected where
  slot : Slot
  front : Frame
  working : Nat
  gap : Option Int
  deriving DecidableEq, Repr

/-- The projected items laid end to end from `next`, the frame at which the one before ends: an item with a hard-in is
pinned to it (R73). -/
def State.layOut (s : State) : Frame → List Slot → List Projected
  | _, [] => []
  | next, i :: l =>
    let x := s.slot i
    let p : Projected :=
      match x.fields.hardIn with
      | some h => ⟨i, h, (s.working x).getD 0, some (frameDiff h next)⟩
      | none => ⟨i, next, (s.working x).getD 0, none⟩
    p :: s.layOut (frameAdd p.front p.working) l

/-- The projection of a track, in rundown order (R73). -/
def State.projection (s : State) (t : Track) : List Projected :=
  match (s.track t).onAir with
  | some o =>
    let x := s.slot o
    let p : Projected := ⟨o, x.start.getD s.sfc, (s.working x).getD 0, none⟩
    p :: s.layOut (frameAdd p.front p.working) (s.candidates t)
  | none => s.layOut (frameAdd s.sfc (s.track t).takeDelay) (s.candidates t)

/-- The projected end PE of a track (R74). -/
def State.projectedEnd (s : State) (t : Track) : Frame :=
  match (s.projection t).getLast? with
  | some p => frameAdd p.front p.working
  | none => s.sfc

/-- The over/under U of a track, absent while its hard-out is absent (R74). -/
def State.overUnder (s : State) (t : Track) : Option Int :=
  (s.track t).hardOut.map (fun h => frameDiff (s.projectedEnd t) h)

/-- The back time B of a projected item, F − U (R74). -/
def backTime (front : Frame) (u : Int) : Frame := front - BitVec.ofInt 32 u

/-- The six derived values of a live item, at the current SFC (R4, R70 to R75). -/
def State.derived (s : State) (i : Slot) : Derived :=
  let x := s.slot i
  let p := (s.projection x.track).find? (fun p => decide (p.slot = i))
  { estimate := s.estimate x
    base := some (s.base x)
    working := s.working x
    front := p.map (·.front)
    back := p.bind (fun p => (s.overUnder x.track).map (backTime p.front))
    gap := p.bind (·.gap) }

/-! ### Over/under status (R76) -/

/-- The status a track moves to from one status, with U, the band T and the hysteresis h (R76). -/
def nextStatus (before : Status) (figure : Option Int) (band hysteresis : Nat) : Status :=
  match figure with
  | none => .none
  | some u =>
    if u > band then .overTime
    else if u < -(band : Int) then .underTime
    else
      match before with
      | .none => .onTime
      | .onTime => .onTime
      | .overTime => if u ≤ (band : Int) - hysteresis then .onTime else .overTime
      | .underTime => if -(band : Int) + hysteresis ≤ u then .onTime else .underTime

/-- A track's status takes a value; a change raises the track's TIMING event (R76). -/
def State.moveStatus (s : State) (t : Track) (x : Status) : State :=
  if s.statusOf t = x then s else (s.setStatus t x).raise (timingEvent t)

/-- The status evaluation of a track at a frame event (R76). -/
def State.statusWork (s : State) (t : Track) : State :=
  s.moveStatus t (nextStatus (s.statusOf t) (s.overUnder t) (s.track t).band (s.track t).hysteresis)

/-! ### Holds and the auto-take frame (R40, R51) -/

/-- The panel HOLD input of a track (section 3.8). -/
def holdInput : Track → PanelInput
  | .a => 2
  | .b => 5

/-- The panel HOLD level of a track is active (R58). -/
def State.panelHold (s : State) (t : Track) : Bool := (s.input (holdInput t)).active

/-- The effective hold of a track (R40). -/
def State.effectiveHold (s : State) (t : Track) : Bool := (s.track t).hostHold || s.panelHold t

/-- The auto-take frame of a track's ON_AIR item, when its auto field is yes: S + base duration − TD, where a new TD acts from the next
frame event (R41, R51). -/
def State.autoFrame (s : State) (t : Track) : Option Frame :=
  (s.track t).onAir.bind (fun o =>
    let x := s.slot o
    if x.fields.auto then some (frameSub (frameAdd (x.start.getD s.sfc) (s.base x)) (s.look t).takeDelay) else none)

/-- The auto-take condition that TRACK.READ reports (R43). -/
def State.autoCondition (s : State) (t : Track) : AutoCondition :=
  match s.autoFrame t with
  | none => .none
  | some f =>
    if !s.reached f then .pending
    else if s.effectiveHold t then .waitingHold
    else if (s.track t).lockoutCount > 0 then .waitingLockout
    else if (s.track t).ready.isNone then .waitingReady
    else Config.autoConditionUnheld s.sfc

end Sys2Proof.Machine
end

