-- ==== Sys2Proof/Machine/Sequencer.lean ====
section
/-! DEFINITION. The READY choice, and the stages of a take but for its groups (R44 to R48). -/

namespace Sys2Proof.Machine

/-! ### The READY choice (R44, R45) -/

/-- A frame towards the prompter, when there is a script (R145, R146). -/
def State.emitScript (s : State) (script : Option Word32) (f : Word32 → OutFrame) : State :=
  match script with
  | some x => s.emit .prompter (f x)
  | none => s

/-- An item entering READY sets PENDING every cue that is not SENT, and every READY-phase cue (R96 steps 1 and 2). -/
def Cue.pendsAtReady (q : Cue) : Bool := decide (q.state ≠ .sent) || decide (q.spec.phase = .ready)

/-- The record of an item that enters READY (R45). -/
def Item.enterReady (x : Item) : Item :=
  { (x.advanceAiring.pendCues Cue.pendsAtReady) with state := .ready, cueFault := false }

/-- An item enters READY by the READY choice (R45, R96). -/
def State.enterReady (s : State) (t : Track) (i : Slot) : State :=
  let s1 := (s.setSlot i (s.slot i).enterReady).setTrack t { s.track t with ready := some i }
  (s1.armPhase .ready s.sfc i).emitScript (s.slot i).fields.script (fun x => .loadScript x t)

/-- The track's READY item, if any, returns to PLANNED, its READY-phase cues are abandoned, and the pointer becomes absent
(R44, R45). -/
def State.unready (s : State) (t : Track) : State :=
  match (s.track t).ready with
  | none => s
  | some r =>
    let s1 := if (s.slot r).state = .ready then s.setSlot r { s.slot r with state := .planned } else s
    (s1.abandonPhase r .ready).setTrack t { s.track t with ready := none }

/-- The READY choice: the first candidate of the track becomes, or stays, its READY item (R44). -/
def State.readyChoice (s : State) (t : Track) : State :=
  let first := (s.candidates t).head?
  if first = (s.track t).ready then s
  else
    match first with
    | none => s.unready t
    | some i => (s.unready t).enterReady t i

/-! ### Skips (R54) -/

/-- An item becomes SKIPPED, with its READY-phase cues abandoned if it was READY (R45, R52, R54). -/
def State.skipItem (s : State) (i : Slot) : State :=
  let s1 := s.setSlot i { (s.slot i).advanceRevision with state := .skipped }
  if (s.slot i).state = .ready then s1.abandonPhase i .ready else s1

/-- A skip of a track's READY item (R54). -/
def State.skip (s : State) (t : Track) (i : Slot) : State :=
  let s1 := s.skipItem i
  (s1.setTrack t { s1.track t with ready := none }).readyChoice t

/-- The panel SKIP press: a skip, or nothing with no READY item (R54, R58). -/
def State.pressSkip (s : State) (t : Track) : State :=
  match (s.track t).ready with
  | some i => s.skip t i
  | none => s

/-! ### The take's first two stages (R46 to R48) -/

/-- The actual A of an outgoing item: S_in − S_out, taken as 0 when negative (R47). -/
def actualOf (startIn startOut : Frame) : Nat := (frameDiff startIn startOut).toNat

/-- The completion of an item, from its record at the end of stage 1 (R48). -/
def readDoneOf (i : Slot) (x : Item) (startIn : Frame) : ReadDone :=
  { item := i, track := x.track, kind := x.fields.kind, presenter := x.fields.presenter, words := x.fields.words
    timed := x.fields.timed, start := x.start.getD startIn, actual := x.actual.getD 0, prompterEnd := x.prompterEnd }

/-- Stage 1: the outgoing item becomes DONE, its START-phase cues are abandoned, its END-phase cues armed, and its completion
handed to the presenter unit (R46, R97). -/
def State.takeOutgoing (s : State) (t : Track) (startIn : Frame) : State :=
  match (s.track t).onAir with
  | none => s
  | some o =>
    let x := s.slot o
    let s1 := s.setSlot o { x.advanceRevision with state := .done, actual := some (actualOf startIn (x.start.getD startIn)) }
    let s2 := (s1.abandonPhase o .start).armPhase .ending startIn o
    s2.setReadsDone (s2.readsDone ++ [readDoneOf o (s2.slot o) startIn])

/-- The items a take of an incoming item passes over: those READY or PLANNED that stand between the ON_AIR item, or the head
of the order, and the incoming one (R52). For an ordinary take there is none to pass over. -/
def State.passedOver (s : State) (t : Track) (incoming : Slot) : List Slot :=
  ((s.afterOnAir t).takeWhile (fun i => decide (i ≠ incoming))).filter
    (fun i => decide ((s.slot i).state = .ready) || decide ((s.slot i).state = .planned))

/-- The record of an item that enters ON_AIR (R46 stage 2, R7). -/
def Item.enterAir (x : Item) (start : Frame) : Item :=
  { x.advanceAiring.advanceRevision with
    state := .onAir, start := some start, prompterEnd := none
    cueFault := if x.state = .ready then x.cueFault else false }

/-- Stage 2: the items passed over become SKIPPED, the incoming item becomes ON_AIR, its script is started on the prompter
and its START-phase cues are armed (R46, R97, R145, R146). -/
def State.takeIncoming (s : State) (t : Track) (incoming : Slot) (startIn : Frame) (between : List Slot) : State :=
  let s1 := between.foldl State.skipItem s
  let x := s1.slot incoming
  let s2 := (s1.setSlot incoming (x.enterAir startIn)).setTrack t { s1.track t with onAir := some incoming, ready := none }
  let s3 := if x.state = .ready then s2 else s2.emitScript x.fields.script (fun f => .loadScript f t)
  (s3.emitScript x.fields.script (fun f => .go f t)).armPhase .start startIn incoming

/-- Stages 5 and 6: the lockout starts, and the track's TAKE event is raised (R46). A take made ahead of the sequencer's frame
work of its own frame event is marked, so that its lockout is counted from the next frame event on (R49). -/
def State.takeClose (s : State) (t : Track) : State :=
  ((s.setTrack t { s.track t with lockoutCount := (s.track t).lockout, lastTake := some s.sfc }).setCut
    (s.cut.set t (s.due.contains (.sequencer t)))).raise (takeEvent t)

end Sys2Proof.Machine
end

