-- ==== Sys2Proof/Machine/Edits.lean ====
section
/-! DEFINITION. The six item edits: their checks and their effects, shared by the direct requests and the apply of a group
(R12 to R19, R32, R33). -/

namespace Sys2Proof.Machine

/-! ### Checks (R12 steps 2 to 7) -/

/-- The track's ON_AIR item is this one. -/
def State.isOnAir (s : State) (i : Slot) : Bool := decide ((s.track (s.slot i).track).onAir = some i)

/-- What the checks of a named item are made against: the revisions that count as current, the slots not compared (R12 step 3, R29,
R32), and, in the apply of a group, the group's track, whose items alone it edits (R24, R32). -/
structure Reference where
  revision : Slot → Word16
  exempt : List Slot
  track : Option Track

/-- A direct request is compared with every item's current revision, and names an item of either track (R12 step 3). -/
def State.currentReference (s : State) : Reference := ⟨fun i => (s.slot i).revision, [], none⟩

/-- Steps 2 and 3 of R12: the named item is live, and the revision carried is its own. In an apply, an item that was freed and used
again by the other track is then RANGE (R24, R32). DEDUCED (notes/assumptions/14.md). -/
def State.checkNamed (s : State) (ref : Reference) (i : Slot) (revision : Option Word16) : Option Result :=
  if !(s.slot i).isLive then some .notFound
  else if !ref.exempt.contains i && decide (revision ≠ some (ref.revision i)) then some .stale
  else if ref.track.any (fun t => decide (t ≠ (s.slot i).track)) then some .range
  else none

/-- The patch floats the item, or changes its kind or story key: what R15 refuses of the ON_AIR item. -/
def Patch.refusedOnAir (p : Patch) : Bool := decide (p.floated = some true) || p.kind.isSome || p.key.isSome

/-- Step 4 of R12: the item's state, as each request's rule says (R15 to R19). -/
def State.checkState (s : State) (i : Slot) : EditBody → Option Result
  | .create .. => none
  | .update p => if s.isOnAir i && p.refusedOnAir then some .onAir else none
  | .restore =>
    if s.isOnAir i then some .onAir
    else
      match (s.slot i).state with
      | .planned => some .state
      | .ready => some .state
      | _ => none
  | _ => if s.isOnAir i then some .onAir else none

/-- An anchor is a live item of the track, and not the named item (R12 step 5). -/
def State.anchorOk (s : State) (t : Track) (named : Option Slot) (anchor : Option Slot) : Bool :=
  match anchor with
  | none => true
  | some a => (s.slot a).isLive && decide ((s.slot a).track = t) && decide (named ≠ some a)

/-- Steps 5 and 6 of R12: the anchor and the key. -/
def State.checkPlace (s : State) (i : Slot) : EditBody → Option Result
  | .create t a f _ =>
    if !s.anchorOk t none a then some .range else if s.keyHeldByOther f.key none then some .duplicate else none
  | .move a => if s.anchorOk (s.slot i).track (some i) a then none else some .range
  | .update p =>
    match p.key with
    | some k => if s.keyHeldByOther k (some i) then some .duplicate else none
    | none => none
  | _ => none

/-- Steps 2 to 6 of R12 for an edit that names an item; a CREATE names none (R12, R32). -/
def State.checkEdit (s : State) (ref : Reference) (i : Slot) (revision : Option Word16) (b : EditBody) : Option Result :=
  match b with
  | .create .. => s.checkPlace i b
  | _ => (s.checkNamed ref i revision).or ((s.checkState i b).or (s.checkPlace i b))

/-! ### Effects (R13 to R19), without the changed event -/

/-- The fields with a patch made (R14). -/
def Patch.apply (p : Patch) (f : Fields) : Fields :=
  { key := p.key.getD f.key
    kind := p.kind.getD f.kind
    floated := p.floated.getD f.floated
    presenter := p.presenter.getD f.presenter
    words := p.words.getD f.words
    planned := p.planned.getD f.planned
    timed := p.timed.getD f.timed
    auto := p.auto.getD f.auto
    hardIn := p.hardIn.getD f.hardIn
    script := p.script.getD f.script }

/-- The record of an item newly created in a slot, which keeps its airing and advances its revision (R13, R3). -/
def Item.created (x : Item) (t : Track) (f : Fields) (cues : List CueSpec) : Item :=
  { condition := .live, revision := nextRevision x.revision, airing := x.airing, track := t, fields := f, state := .planned
    cues := cues.map CueSpec.fresh }

/-- An item is created in a slot (R13). -/
def State.createIn (s : State) (i : Slot) (t : Track) (anchor : Option Slot) (f : Fields) (cues : List CueSpec) : State :=
  let s1 := s.setSlot i ((s.slot i).created t f cues)
  s1.setOrder t (insertAfter anchor i (s1.order t))

/-- The record with its revision advanced, unless the edit counts as part of the slot's creation (R5, R29). -/
def Item.advanceUnless (x : Item) (creation : Bool) : Item := if creation then x else x.advanceRevision

/-- LOAD_SCRIPT for an update that gives the track's READY item a script it did not have (R145). -/
def State.reloadScript (s : State) (i : Slot) (p : Patch) : State :=
  let x := s.slot i
  match p.script with
  | some (some r) =>
    if (s.track x.track).ready = some i ∧ x.fields.script ≠ some r then s.emit .prompter (.loadScript r x.track) else s
  | _ => s

/-- An update of an item (R14, R15). -/
def State.updateItem (s : State) (i : Slot) (p : Patch) (creation : Bool) : State :=
  let x := s.slot i
  (s.reloadScript i p).setSlot i ({ x with fields := p.apply x.fields }.advanceUnless creation)

/-- A move of an item (R16). -/
def State.moveItem (s : State) (i : Slot) (anchor : Option Slot) (creation : Bool) : State :=
  let x := s.slot i
  let s1 := s.setSlot i (x.advanceUnless creation)
  s1.setOrder x.track (insertAfter anchor i ((s1.order x.track).filter (fun j => decide (j ≠ i))))

/-- A retired READY item leaves the READY pointer. -/
def State.clearReadyOf (s : State) (t : Track) (i : Slot) : State :=
  if (s.track t).ready = some i then s.setTrack t { s.track t with ready := none } else s

/-- A retire of an item (R17 steps 1 to 4). -/
def State.retireItem (s : State) (i : Slot) : State :=
  let s1 := s.abandonAll i
  let x := s1.slot i
  let s2 := s1.setSlot i x.advanceAiring.advanceRevision.freed
  (s2.setOrder x.track ((s2.order x.track).filter (fun j => decide (j ≠ i)))).clearReadyOf x.track i

/-- The record of an item restored (R18 steps 2 to 4). -/
def Item.restored (x : Item) : Item :=
  { (x.pendCues (fun _ => true)).advanceRevision with
    state := .planned, start := none, actual := none, prompterEnd := none, cueFault := false }

/-- A restore of an item (R18 steps 1 to 4). -/
def State.restoreItem (s : State) (i : Slot) : State :=
  let s1 := s.abandonAll i
  s1.setSlot i (s1.slot i).restored

/-- The record of an item whose list is replaced (R19 steps 2 and 3); as part of a slot's creation neither counter advances
(R29). -/
def Item.recued (x : Item) (cues : List CueSpec) (creation : Bool) : Item :=
  let y := if creation then x else x.advanceAiring.advanceRevision
  { y with cues := cues.map CueSpec.fresh, cueFault := false }

/-- The cue list of an item is replaced, and armed if it is its track's READY item (R19). -/
def State.recueItem (s : State) (i : Slot) (cues : List CueSpec) (creation : Bool) : State :=
  let s1 := s.abandonAll i
  let x := s1.slot i
  let s2 := s1.setSlot i (x.recued cues creation)
  if (s2.track x.track).ready = some i then s2.armPhase .ready s2.sfc i else s2

/-- The effects of an edit on the item table and the cues (R13 to R19). -/
def State.carryOut (s : State) (i : Slot) (creation : Bool) : EditBody → State
  | .create t a f l => s.createIn i t a f l
  | .update p => s.updateItem i p creation
  | .move a => s.moveItem i a creation
  | .retire => s.retireItem i
  | .restore => s.restoreItem i
  | .cues l => s.recueItem i l creation

/-- An edit that has passed its checks is carried out (R13 to R19, R33). The hard-in it gives, and the eligibility, are watched from the
next frame event (R14, R52). -/
def State.performEdit (s : State) (i : Slot) (creation : Bool) (b : EditBody) : State := s.keepWatch.carryOut i creation b

/-- The edit hands a changed event: it changes the order, or the state or floated field of the item, as that stood before it
(R9, R14 to R19, R33). -/
def EditBody.hands (b : EditBody) (x : Item) : Bool :=
  match b with
  | .update p =>
    (match p.floated with
     | some f => f != x.fields.floated
     | none => false)
  | .cues _ => false
  | _ => true

end Sys2Proof.Machine
end

