-- ==== Sys2Proof/Machine/Groups.lean ====
section
/-! DEFINITION. The edit group unit: staging, the two passes of an apply, rejection, discard (R24 to R38). -/

namespace Sys2Proof.Machine

/-! ### Staging (R27, R28) -/

/-- Steps 3 to 6 and 9 of R27 for the item a staged edit names: it is live, or reserved by this group. -/
def State.checkStagedItem (s : State) (g : Group) (i : Slot) (revision : Option Word16) : Option Result :=
  if g.reserved.contains i then none
  else if !(s.slot i).isLive then some .notFound
  else if (s.slot i).track ≠ g.track then some .range
  else if revision ≠ some (s.slot i).revision then some .stale
  else none

/-- Step 7 of R27: an anchor is a live item of the group's track or a slot it has reserved, and not the named item. -/
def State.stagedAnchorOk (s : State) (g : Group) (named : Option Slot) (anchor : Option Slot) : Bool :=
  match anchor with
  | none => true
  | some a => decide (named ≠ some a) && (g.reserved.contains a || ((s.slot a).isLive && decide ((s.slot a).track = g.track)))

/-- The cue entries an edit's own list holds (R28). -/
def EditBody.newEntries : EditBody → Nat
  | .create _ _ _ l => l.length
  | .cues l => l.length
  | _ => 0

/-- Step 10 of R27: a staging entry, a slot for a CREATE, and cue entries for the list (R28). -/
def State.stagingSpace (s : State) (b : EditBody) : Bool :=
  decide (0 < s.freeStaging) && decide (b.newEntries ≤ s.freeEntries) &&
    (match b with
     | .create .. => s.lowestFree.isSome
     | _ => true)

/-- Steps 7 to 9 of R27. -/
def State.checkStagedPlace (s : State) (g : Group) (slot : Option Slot) (b : EditBody) : Option Result :=
  match b, slot with
  | .create _ a f _, _ =>
    if !s.stagedAnchorOk g none a then some .range else if s.keyHeldByOther f.key none then some .duplicate else none
  | .move a, i => if s.stagedAnchorOk g i a then none else some .range
  | .update p, i =>
    (match p.key with
     | some k => if s.keyHeldByOther k i then some .duplicate else none
     | none => none)
  | .retire, some i => if g.reserved.contains i then some .state else none
  | .restore, some i => if g.reserved.contains i then some .state else none
  | _, _ => none

/-- Steps 3 to 6 of R27: the track of a CREATE, or the item named. -/
def State.checkStagedNamed (s : State) (g : Group) (e : ParsedEdit) : Option Result :=
  match e.body, e.slot with
  | .create t _ _ _, _ => if t ≠ g.track then some .range else none
  | _, some i => s.checkStagedItem g i e.revision
  | _, none => none

/-- Steps 2 to 10 of R27. -/
def State.checkStaged (s : State) (g : Group) (e : ParsedEdit) : Option Result :=
  if g.state ≠ .opened then some .state
  else
    (s.checkStagedNamed g e).or
      ((s.checkStagedPlace g e.slot e.body).or (if s.stagingSpace e.body then none else some .noSpace))

/-- The record of a slot reserved by a staged CREATE: its counters kept, STAGED, with the fields given (R3, R28). -/
def Item.reserve (x : Item) (t : Track) (f : Fields) (cues : List CueSpec) : Item :=
  { condition := .staged, revision := x.revision, airing := x.airing, track := t, fields := f, state := .staged
    cues := cues.map CueSpec.fresh }

/-- The slot a staged edit names: for a CREATE the lowest free slot. -/
def State.stagedSlot (s : State) (e : ParsedEdit) : Slot :=
  match e.body with
  | .create .. => s.lowestFree.getD 0
  | _ => e.slot.getD 0

/-- A staged edit is accepted: it draws its resources and joins the group's list (R28). -/
def State.stage (s : State) (g : GroupNo) (e : ParsedEdit) : State :=
  let i := s.stagedSlot e
  let x := s.group g
  let s1 :=
    match e.body with
    | .create t _ f l => s.setSlot i ((s.slot i).reserve t f l)
    | _ => s
  s1.setGroup g { x with
    edits := x.edits ++ [⟨i, e.revision, e.body⟩]
    reserved := (match e.body with
      | .create .. => x.reserved ++ [i]
      | _ => x.reserved)
    reservedEntries := x.reservedEntries + e.body.newEntries }

/-! ### The apply (R32, R33, R35) -/

/-- The first pass checks each edit against the table as the earlier edits leave it, and the second pass carries the edits out
in the same order: made together, on a state that is thrown away when a check fails. The failing edit's cause and index, or
the state with every edit made (R32, R33). DEDUCED (notes/assumptions/14.md): the two passes are made as one. -/
def State.runEdits (ref : Reference) : Nat → List StagedEdit → State → Except (Result × Nat) State
  | _, [], s => .ok s
  | k, e :: l, s =>
    match s.checkEdit ref e.slot e.revision e.body with
    | some cause => .error (cause, k)
    | none => State.runEdits ref (k + 1) l (s.performEdit e.slot (ref.exempt.contains e.slot) e.body)

/-- Some edit of the list hands the changed event, each judged against the table as the earlier edits leave it (R33). -/
def State.editsHand (ref : Reference) : List StagedEdit → State → Bool
  | [], _ => false
  | e :: l, s =>
    e.body.hands (s.slot e.slot) || State.editsHand ref l (s.performEdit e.slot (ref.exempt.contains e.slot) e.body)

/-- The revisions a group's edits are compared with. At a take, an item whose revision the take advanced (from `pre` to
`post`) and which no earlier group of the take has changed is compared by the revision it held before the take; every other
item by its revision when this apply begins. Outside a take `pre` and `post` are the slots as they stand (R32). -/
def State.applyReference (s : State) (g : Group) (pre post : Bank 512 Item) : Reference :=
  { revision := fun i =>
      if (s.slot i).revision = (post.get i).revision then (pre.get i).revision else (s.slot i).revision
    exempt := g.reserved
    track := some g.track }

/-- A group record emptied and IDLE with a last result (R25). -/
def Group.toIdle (g : Group) (last : LastResult) : Group :=
  { g with state := .idle, edits := [], reserved := [], reservedEntries := 0, last := last }

/-- A group leaves its track's armed queue (R34). -/
def State.leaveQueue (s : State) (g : GroupNo) : State :=
  let t := (s.group g).track
  s.setArmed t ((s.armedQueue t).filter (fun h => decide (h ≠ g)))

/-- A group's reserved slots become free, with their kept counters (R35, R37). -/
def State.freeReserved (s : State) (l : List Slot) : State := l.foldl (fun s i => s.setSlot i (s.slot i).freed) s

/-- A group becomes IDLE with a last result, outside its track's queue. -/
def State.idleGroup (s : State) (g : GroupNo) (last : LastResult) : State :=
  let s1 := s.leaveQueue g
  s1.setGroup g ((s1.group g).toIdle last)

/-- A group is applied: carried out whole, or rejected with the cause and index of the failing edit. GROUP_DONE is raised
either way (R32, R33, R35). -/
def State.applyGroup (pre post : Bank 512 Item) (s : State) (g : GroupNo) : State :=
  match State.runEdits (s.applyReference (s.group g) pre post) 0 (s.group g).edits s with
  | .ok s1 => (s1.idleGroup g .applied).raise .groupDone
  | .error (cause, k) => ((s.freeReserved (s.group g).reserved).idleGroup g (.rejected cause k)).raise .groupDone

/-- A launch that is applied at once: the apply, and then the changed event when the group was applied and an edit hands it
(R31, R33). -/
def State.applyNow (s : State) (g : GroupNo) : State :=
  let ref := s.applyReference (s.group g) s.slots s.slots
  let s1 := State.applyGroup s.slots s.slots s g
  if (s1.group g).last = .applied ∧ State.editsHand ref (s.group g).edits s = true then s1.readyChoice (s.group g).track else s1

/-- A group is discarded: its edits dropped and its resources returned, with no GROUP_DONE (R37). -/
def State.discardGroup (s : State) (g : GroupNo) : State := (s.freeReserved (s.group g).reserved).idleGroup g .none

/-- Stage 3 of a take: the groups of the track's armed queue are applied one after another, from its head (R36). -/
def State.applyArmed (s : State) (t : Track) (pre : Bank 512 Item) : State :=
  (s.armedQueue t).foldl (State.applyGroup pre s.slots) s

end Sys2Proof.Machine
end

