-- ==== Sys2Proof/Machine/Takes.lean ====
section
/-! DEFINITION. The take and its sources, the sequencer's frame work, track reset and the panel inputs (R46 to R58). -/

namespace Sys2Proof.Machine

/-- A take: its six stages in order (R46). `startIn` is S_in and `between` the items passed over. -/
def State.take (s : State) (t : Track) (incoming : Slot) (startIn : Frame) (between : List Slot) : State :=
  let s1 := s.takeOutgoing t startIn
  let s2 := s1.takeIncoming t incoming startIn between
  let s3 := s2.applyArmed t s.slots
  (s3.readyChoice t).takeClose t

/-- The start frame S_in of an ordinary take made now, t + TD (R46). -/
def State.startIn (s : State) (t : Track) : Frame := frameAdd s.sfc (s.track t).takeDelay

/-- An ordinary take of the READY item (R46, R50). -/
def State.ordinaryTake (s : State) (t : Track) (ready : Slot) : State := s.take t ready (s.startIn t) []

/-- The panel TAKE press: an ordinary take, or nothing in lockout or with no READY item (R50, R58). -/
def State.pressTake (s : State) (t : Track) : State :=
  match (s.track t).ready with
  | some r => if (s.track t).lockoutCount > 0 then s else s.ordinaryTake t r
  | none => s

/-! ### The sequencer's frame work (R49, R51 to R53) -/

/-- Step 1: the lockout count decreases by 1 while it is above 0 (R49). -/
def State.countLockout (s : State) (t : Track) : State :=
  s.setTrack t { s.track t with lockoutCount := (s.track t).lockoutCount - 1 }

/-- An item of the hard-in watch is due: the hard-in by which it is watched, less the take delay, is reached. A hard-in, a take delay
or an eligibility given since the frame event was made is not looked at before the next (R14, R41, R52). -/
def State.hardInDue (s : State) (t : Track) (i : Slot) : Bool :=
  match s.watchedHardIn t i with
  | some h => s.reachedAtWork (frameSub h (s.look t).takeDelay)
  | none => false

/-- The due item standing latest in the order, among those still READY or eligible (R52, R60). -/
def State.hardInItem (s : State) (t : Track) : Option Slot := ((s.candidates t).filter (s.hardInDue t)).getLast?

/-- The hard-in take of an item, which starts at the hard-in by which it was watched (R46, R52). -/
def State.hardInTakeOf (s : State) (t : Track) (i : Slot) : State :=
  s.take t i ((s.watchedHardIn t i).getD s.sfc) (s.passedOver t i)

/-- The auto-take was free to go when the frame event was made: auto was yes, and the host hold no. An update to yes, or a hold
released, since then lets it go at the next (R42, R51). -/
def Look.autoFree (x : Look) : Bool := x.auto && !x.hostHold

/-- The READY item of an auto-take, when every condition holds (R51). -/
def State.autoTakeItem (s : State) (t : Track) : Option Slot :=
  match s.autoFrame t with
  | some f =>
    if s.reachedAtWork f && (s.look t).autoFree && !s.effectiveHold t && decide ((s.track t).lockoutCount = 0) then (s.track t).ready
    else none
  | none => none

/-- Step 1 of the sequencer's frame work: the lockout is counted, but for one that a take of this very frame event started (R49,
R53). A take at frame t is followed by refusals while t' − t is less than L. -/
def State.beginSequencer (s : State) (t : Track) : State :=
  if s.cut.get t then s.setCut (s.cut.set t false) else s.countLockout t

/-- The READY item of the auto-take that the frame work makes: none where the item on air was put there since this frame event, whose
auto-take is looked at from the next frame event on (R51, R53, R59). -/
def State.autoLook (s : State) (t : Track) : Option Slot := if s.cut.get t then none else (s.countLockout t).autoTakeItem t

/-- The sequencer's frame work: the lockout, then the hard-in watch, then the auto-take (R53). -/
def State.sequencerWork (s : State) (t : Track) : State :=
  let s1 := s.beginSequencer t
  match s1.hardInItem t with
  | some i => s1.hardInTakeOf t i
  | none =>
    match s.autoLook t with
    | some r => s1.ordinaryTake t r
    | none => s1

/-! ### Track reset (R55) -/

/-- Step 2 of a track reset applies to these states. -/
def ItemState.returns : ItemState → Bool
  | .ready => true
  | .onAir => true
  | .done => true
  | .skipped => true
  | _ => false

/-- The record of an item returned to PLANNED, where it was not, with its cues reset (R55 steps 2 and 3). -/
def Item.resetByTrack (x : Item) : Item :=
  let y := if x.state.returns then
      { x.advanceAiring.advanceRevision with state := .planned, start := none, actual := none, prompterEnd := none }
    else x
  { y.pendCues (fun _ => true) with cueFault := false }

/-- The group is one a track reset discards: OPEN or ARMED, of the track (R37, R55). -/
def Group.discardedBy (x : Group) (t : Track) : Bool := decide (x.track = t) && decide (x.state ≠ .idle)

/-- A track reset (R55). -/
def State.resetTrack (s : State) (t : Track) : State :=
  let s1 := (s.order t).foldl State.abandonAll s.keepWatch
  let s2 := (s.order t).foldl (fun s i => s.setSlot i (s.slot i).resetByTrack) s1
  let s3 := s2.setTrack t { s2.track t with onAir := none, ready := none, lockoutCount := 0, lastTake := none }
  let s4 := s3.moveStatus t .none
  let s5 := ((List.finRange 4).filter (fun g => (s4.group g).discardedBy t)).foldl State.discardGroup s4
  s5.readyChoice t

/-! ### Panel inputs (R57, R58) -/

/-- The next level and count of an input at a sample, and whether a change is recognised (R57). -/
def Panel.sample (x : Panel) (setting : Nat) : Panel × Bool :=
  if x.raw = x.active then ({ x with count := 0 }, false)
  else if setting ≤ x.count + 1 then ({ x with active := x.raw, count := 0 }, true)
  else ({ x with count := x.count + 1 }, false)

/-- A recognised press of an input (R58); HOLD acts by its level alone. -/
def State.press (s : State) : PanelInput → State
  | 0 => s.pressTake .a
  | 1 => s.pressSkip .a
  | 3 => s.pressTake .b
  | 4 => s.pressSkip .b
  | 6 => s.clearAll
  | _ => s

/-- The frame work of a panel input: its raw level is sampled, and a recognised press acts (R57, R58). -/
def State.panelWork (s : State) (i : PanelInput) : State :=
  let x := s.input i
  let y := (x.sample s.debounce).1
  let s1 := s.setInput i y
  if y.active && !x.active then s1.press i else s1

end Sys2Proof.Machine
end

