-- ==== Sys2Proof/Machine/Frames.lean ====
section
/-! DEFINITION. The bytes of frames: numbers and codes as bytes, the framing of requests on the SPI port, and the gallery link frames
with their receivers (chapter 11, R151, R163, R164). -/

namespace Sys2Proof.Machine

/-! ### Bytes (R163) -/

/-- A number as `n` bytes, most significant byte first (R163). -/
def beBytes : Nat → Nat → List Byte
  | 0, _ => []
  | n + 1, v => BitVec.ofNat 8 (v / 256 ^ n) :: beBytes n v

/-- The number that bytes hold, most significant byte first (R163). -/
def ofBytes (l : List Byte) : Nat := l.foldl (fun a b => a * 256 + b.toNat) 0

/-- Bits of a presence or flags byte, bit 0 first. -/
def bitsNat : List Bool → Nat
  | [] => 0
  | b :: l => b.toNat + 2 * bitsNat l

/-- A fill byte (R163). -/
def fill : Byte := 0

/-! ### Codes (section 11.2) -/

/-- Result codes. -/
def Result.code : Result → Nat
  | .ok => 0x00
  | .clamped => 0x01
  | .frame => 0x03
  | .unknown => 0x04
  | .range => 0x05
  | .notFound => 0x06
  | .stale => 0x07
  | .duplicate => 0x08
  | .noSpace => 0x09
  | .onAir => 0x0A
  | .state => 0x0B
  | .tooSoon => 0x0C
  | .noNext => 0x0D

/-- Item kind codes. -/
def Kind.code : Kind → Nat
  | .read => 0
  | .clip => 1
  | .package => 2
  | .live => 3
  | .brk => 4

/-- Item state codes; a staged slot is never reported. -/
def ItemState.code : ItemState → Nat
  | .planned => 0
  | .ready => 1
  | .onAir => 2
  | .done => 3
  | .skipped => 4
  | .staged => 5

/-- Phase codes. -/
def Phase.code : Phase → Nat
  | .ready => 0
  | .start => 1
  | .ending => 2

/-- Cue state codes. -/
def CueState.code : CueState → Nat
  | .pending => 0
  | .armed => 1
  | .queued => 2
  | .sent => 3
  | .done => 4
  | .failed => 5
  | .abandoned => 6

/-- Fail cause codes. -/
def FailCause.code : FailCause → Nat
  | .unrouted => 0
  | .offline => 1
  | .kind => 2
  | .channelFault => 3
  | .queueFull => 4
  | .late => 5
  | .refused => 6
  | .timeout => 7

/-- Frame rate codes. -/
def FrameRate.code : FrameRate → Nat
  | .r25 => 0
  | .r2997 => 1
  | .r30 => 2
  | .r50 => 3
  | .r5994 => 4
  | .r60 => 5

/-- Light state codes (section 11.3). -/
def LightState.code : LightState → Nat
  | .off => 0
  | .standby => 1
  | .onAir => 2
  | .wrap => 3

/-- Route number codes: 10h DEFAULT, FFh absent. -/
def routeCode : Option Resolved → Nat
  | none => 0xFF
  | some r =>
    match r.route with
    | .entry n => n.val
    | .default => 0x10

/-! ### The framing of requests (R151) -/

/-- The body size of a request of fixed size, by its code; `none` for a code that is not one (section 11.2). -/
def fixedSize : Nat → Option Nat
  | 0x02 => some 27
  | 0x03 => some 7
  | 0x04 => some 5
  | 0x05 => some 5
  | 0x07 => some 2
  | 0x08 => some 4
  | 0x09 => some 4
  | 0x10 => some 2
  | 0x11 => some 2
  | 0x12 => some 1
  | 0x13 => some 1
  | 0x20 => some 1
  | 0x21 => some 1
  | 0x22 => some 2
  | 0x23 => some 13
  | 0x24 => some 1
  | 0x25 => some 1
  | 0x28 => some 4
  | 0x29 => some 0
  | 0x30 => some 20
  | 0x31 => some 3
  | 0x32 => some 1
  | 0x38 => some 20
  | 0x39 => some 1
  | 0x3A => some 4
  | 0x40 => some 10
  | 0x41 => some 1
  | 0x42 => some 1
  | 0x50 => some 0
  | 0x51 => some 0
  | 0x52 => some 17
  | 0x53 => some 0
  | 0x54 => some 0
  | _ => none

/-- The body has the size its own cue count gives; `fixed` bytes stand before the entries, the count the last of them. -/
def countedSize (fixed : Nat) (body : List Byte) : Bool :=
  match body[fixed - 1]? with
  | some n => decide (body.length = fixed + 7 * n.toNat)
  | none => false

/-- The code is one the part recognises (section 11.2). -/
def knownCode (code : Nat) : Bool := decide (code = 0x01) || decide (code = 0x06) || (fixedSize code).isSome

/-- The length agrees with the request: its fixed size, or the size its own cue count gives (R151). -/
def sizeAgrees (code : Nat) (body : List Byte) : Bool :=
  if code = 0x01 then countedSize 25 body
  else if code = 0x06 then countedSize 6 body
  else decide (fixedSize code = some body.length)

/-- The first three checks of a write: the length byte against the clocks, the code, and the length against the request; the
first that fails gives the result (R151). `bytes` are the whole bytes shifted in after the length byte. -/
def framing (length : Nat) (bytes : List Byte) (partByte : Bool) : Option Result :=
  if partByte || decide (bytes.length ≠ length) then some .frame
  else
    match bytes with
    | [] => some .frame
    | code :: body =>
      if !knownCode code.toNat then some .unknown
      else if sizeAgrees code.toNat body then none else some .frame

/-! ### Gallery link frames (section 11.3, R164) -/

/-- The lead byte. -/
def lead : Byte := 0xC3

/-- The sum of bytes, mod 256. -/
def byteSum (l : List Byte) : Byte := l.foldr (· + ·) 0

/-- A frame's bytes: lead, type, length, payload and check. -/
def linkFrame (type : Byte) (payload : List Byte) : List Byte :=
  let head := type :: BitVec.ofNat 8 payload.length :: payload
  lead :: head ++ [0 - byteSum head]

/-- The bytes of a frame the part sends (section 11.3). -/
def OutFrame.bytes : OutFrame → List Byte
  | .command tag a p t => linkFrame 0x01 (beBytes 1 tag.toNat ++ beBytes 1 a.code ++ beBytes 2 p.toNat ++ beBytes 1 (trackCode t))
  | .poll => linkFrame 0x02 []
  | .loadScript x t => linkFrame 0x11 (beBytes 4 x.toNat ++ beBytes 1 (trackCode t))
  | .go x t => linkFrame 0x12 (beBytes 4 x.toNat ++ beBytes 1 (trackCode t))
  | .display p l n r => linkFrame 0x21 (beBytes 1 p.val ++ beBytes 1 l.code ++ beBytes 3 n ++ beBytes 1 r.code)

/-- The bytes after the lead make a whole frame: type, length, that many payload bytes and the check (R164). -/
def wholeFrame (l : List Byte) : Bool :=
  match l with
  | _ :: n :: rest => decide (rest.length = n.toNat + 1)
  | _ => false

/-- A receiver takes a byte: the bytes of a frame, when the byte completes one (R164). DEDUCED (notes/assumptions/9.md). -/
def Receiver.feed (r : Receiver) (b : Byte) : Receiver × Option (List Byte) :=
  match r with
  | .hunting => (if b = lead then .taking [] else .hunting, none)
  | .taking l =>
    let l' := l ++ [b]
    if wholeFrame l' then (.hunting, some l') else (.taking l', none)

/-- A receiver takes bytes: where it stands after them, and the frames completed, in order. -/
def Receiver.feedAll : Receiver → List Byte → Receiver × List (List Byte)
  | r, [] => (r, [])
  | r, b :: l =>
    let x := r.feed b
    let y := Receiver.feedAll x.1 l
    (y.1, x.2.toList ++ y.2)

/-- The payload size of the types listed for a link's incoming direction (section 11.3). -/
def incomingSize : RxLink → Byte → Option Nat
  | .device _, t => if t = 0x81 ∨ t = 0x82 ∨ t = 0x83 then some 1 else none
  | .prompter, t => if t = 0x91 then some 5 else none

/-- A whole frame is valid: its byte sum is 0, and a type listed for the incoming direction has its payload size (R164). -/
def validFrame (k : RxLink) (l : List Byte) : Bool :=
  decide (byteSum l = 0) &&
    (match l with
     | t :: n :: _ =>
       (match incomingSize k t with
        | some size => decide (n.toNat = size)
        | none => true)
     | _ => false)

/-- The payload of a whole frame. -/
def payloadOf (l : List Byte) : List Byte := (l.drop 2).dropLast

/-- A valid frame on a device link is taken by its type; an OFFLINE channel discards it (R126). -/
def State.takeDeviceFrame (s : State) (c : Chan) (type : Byte) (payload : List Byte) : State :=
  if (s.channel c).state = .offline then s
  else if type = 0x81 then s.takeAccept c (payload.headD 0)
  else if type = 0x82 then s.takeRefuse c (payload.headD 0)
  else if type = 0x83 then s.takeStatus c (payload.headD 0)
  else s.hear c

/-- An END report: it sets the prompter end of the track's ON_AIR item whose script it names, if that is absent (R147). -/
def State.takeEnd (s : State) (script : Word32) (track : Nat) : State :=
  match trackOf track with
  | none => s
  | some t =>
    match (s.track t).onAir with
    | none => s
    | some o =>
      let x := s.slot o
      if x.fields.script = some script ∧ x.prompterEnd = none then s.setSlot o { x with prompterEnd := some s.sfc } else s

/-- A valid frame on the prompter link: an END report is taken, any other disregarded (R147). -/
def State.takePrompterFrame (s : State) (type : Byte) (payload : List Byte) : State :=
  if type = 0x91 then s.takeEnd (BitVec.ofNat 32 (ofBytes (payload.take 4))) (ofBytes (payload.drop 4)) else s

/-- A whole frame taken from a link: discarded unless it is valid (R164). -/
def State.takeFrame (k : RxLink) (s : State) (l : List Byte) : State :=
  if validFrame k l then
    match k with
    | .device c => s.takeDeviceFrame c (l.headD 0) (payloadOf l)
    | .prompter => s.takePrompterFrame (l.headD 0) (payloadOf l)
  else s

/-- Bytes arrive on a link: its receiver takes them, and the frames they complete are taken in order (R164). -/
def State.receive (s : State) (k : RxLink) (bytes : List Byte) : State :=
  let x := Receiver.feedAll (s.rx k) bytes
  x.2.foldl (State.takeFrame k) (s.setRx k x.1)

end Sys2Proof.Machine
end

