-- ==== Sys2Proof/Machine/Learning.lean ====
section
/-! DEFINITION. The presenter unit: measurement, samples and read-rate learning (R81 to R86, R90). -/

namespace Sys2Proof.Machine

/-- The lowest and highest read rate (R79). -/
def minRate : Nat := 64
/-- The highest read rate (R79). -/
def maxRate : Nat := 16383

/-- The measurement of a completion: the frames to the prompter's end report when they lie from 1 to A, or else A (R81). -/
def ReadDone.measure (d : ReadDone) : MeasureKind × Nat :=
  match d.prompterEnd with
  | some e =>
    let m := frameDiff e d.start
    if 1 ≤ m ∧ m ≤ (d.actual : Int) then (.prompter, m.toNat) else (.actual, d.actual)
  | none => (.actual, d.actual)

/-- Conditions 1 and 3 to 6 of R82, for the position the completion names. -/
def ReadDone.givesSample (d : ReadDone) (x : Presenter) : Bool :=
  decide (d.kind = .read) && x.enabled && x.learn && decide (x.minWords ≤ d.words) && decide (1 ≤ d.measure.2) &&
    (!d.timed || decide (d.measure.1 = .prompter))

/-- The sample rate: floor((M × 256 + floor(W/2)) / W), clamped to 64 to 16,383 (R83). -/
def sampleRate (m w : Nat) : Nat := clampTo minRate maxRate ((m * 256 + w / 2) / w)

/-- The step for a difference of magnitude `d` and a shift (R85). -/
def stepOf (d shift : Nat) : Nat := if shift = 0 then d else (d + 2 ^ (shift - 1)) / 2 ^ shift

/-- The sample is an outlier: its difference exceeds a halt band that is not 0 (R84). -/
def Presenter.isOutlier (x : Presenter) (d : Int) : Bool := decide (x.haltBand ≠ 0) && decide (x.haltBand < d.natAbs)

/-- The shift of a sample that is learnt (R85). -/
def Presenter.shiftFor (x : Presenter) (d : Int) : Nat := if x.fastBound < d.natAbs then x.fastShift else x.slowShift

/-- The rate moved toward the sample by its step, clamped (R85). -/
def Presenter.moved (x : Presenter) (d : Int) : Nat :=
  let step := stepOf d.natAbs (x.shiftFor d)
  clampTo minRate maxRate (if 0 < d then x.rate + step else x.rate - step)

/-- A sample of rate `r` taken: the outcome, the rate after it, the outlier count after it, and the shift (R84, R85). -/
def Presenter.learnt (x : Presenter) (r : Nat) : Learning × Nat × Nat × Option Nat :=
  let d : Int := (r : Int) - x.rate
  if x.isOutlier d then
    if x.outliers + 1 < 3 then (.held, x.rate, x.outliers + 1, none) else (.reseed, r, 0, none)
  else (.learned, x.moved d, 0, some (x.shiftFor d))

/-- The record after a sample, with its last sample replaced (R84 to R86). -/
def Presenter.afterSample (x : Presenter) (d : ReadDone) : Presenter :=
  let r := sampleRate d.measure.2 d.words
  let l := x.learnt r
  { x with
    rate := l.2.1
    outliers := l.2.2.1
    last := some { item := d.item, track := d.track, kind := d.measure.1, measure := d.measure.2, words := d.words, rate := r
                   difference := (r : Int) - x.rate, shift := l.2.2.2, outcome := l.1, rateAfter := l.2.1 } }

/-- The presenter unit judges and learns from one completion; a reseed raises RATE_RESEED (R82 to R86). -/
def State.learnFrom (s : State) (d : ReadDone) : State :=
  match d.presenter with
  | none => s
  | some p =>
    let x := s.presenter p
    if d.givesSample x then
      let s1 := s.setPresenter p (x.afterSample d)
      if (x.learnt (sampleRate d.measure.2 d.words)).1 = .reseed then s1.raise .rateReseed else s1
    else s

/-- The completion at the head of the list is taken (R90). -/
def State.takeReadDone (s : State) : State :=
  match s.readsDone with
  | [] => s
  | d :: l => (s.setReadsDone l).learnFrom d

/-- Every completion of the list is learnt from, from its head (R90). -/
def State.takeAllReadDone (s : State) : State := s.readsDone.foldl State.learnFrom (s.setReadsDone [])

end Sys2Proof.Machine
end

