-- ==== Sys2Proof/Machine/Outputs.lean ====
section
/-! DEFINITION. The gallery outputs: light states, countdowns, light work and display work (R138 to R144). -/

namespace Sys2Proof.Machine

/-- The ON_AIR item of a track, when it names a presenter (R139). -/
def State.onAirNaming (s : State) (p : Pos) (t : Track) : Option Item :=
  ((s.track t).onAir.map s.slot).filter (fun x => decide (x.fields.presenter = some p))

/-- The READY item of a track, when it names a presenter (R139). -/
def State.readyNaming (s : State) (p : Pos) (t : Track) : Option Slot :=
  (s.track t).ready.filter (fun i => decide ((s.slot i).fields.presenter = some p))

/-- The remaining frames of a track's ON_AIR item, when it names a presenter. -/
def State.remainingNaming (s : State) (p : Pos) (t : Track) : Option Nat := (s.onAirNaming p t).map s.remaining

/-- The lesser of two figures that may be absent; the first when they are equal (R140). -/
def fewest : Option Nat → Option Nat → Option Nat
  | some x, some y => some (if y < x then y else x)
  | some x, none => some x
  | none, y => y

/-- The fewest remaining frames among the ON_AIR items that name a presenter (R139, R140). -/
def State.leastRemaining (s : State) (p : Pos) : Option Nat := fewest (s.remainingNaming p .a) (s.remainingNaming p .b)

/-- The light state of a position, derived from both tracks (R139). -/
def State.lightState (s : State) (p : Pos) : LightState :=
  if !(s.presenter p).enabled then .off
  else
    match s.leastRemaining p with
    | some r => if r ≤ (s.presenter p).wrap then .wrap else .onAir
    | none => if (s.readyNaming p .a).isSome || (s.readyNaming p .b).isSome then .standby else .off

/-- The front time of a track's READY item, when it names a presenter (R140). -/
def State.readyFront (s : State) (p : Pos) (t : Track) : Option Frame :=
  (s.readyNaming p t).bind (fun i => ((s.projection t).find? (fun q => decide (q.slot = i))).map (·.front))

/-- The earlier of two front times that may be absent, by signed difference; the first when they are equal (R140). Two front times
exactly 2^31 frames apart differ by −2^31 either way (R63), so neither is the earlier and R140 gives no choice: the second, Track B's,
is taken there (DESIGN CHOICE: notes/assumptions/15.md). -/
def earlier : Option Frame → Option Frame → Option Frame
  | some x, some y => some (if frameDiff y x < 0 then y else x)
  | some x, none => some x
  | none, y => y

/-- The countdown of a position in a light state (R140). -/
def State.countdown (s : State) (p : Pos) (state : LightState) : Nat :=
  match state with
  | .off => 0
  | .standby =>
    (match earlier (s.readyFront p .a) (s.readyFront p .b) with
     | some f => min Config.maxElapsed (frameDiff f s.sfc).toNat
     | none => 0)
  | _ => min Config.maxElapsed ((s.leastRemaining p).getD 0)

/-- The pattern of a light state in a presenter's record; OFF has none (R141). -/
def Presenter.pattern (x : Presenter) : LightState → Option Pattern
  | .off => none
  | .standby => some x.standby
  | .onAir => some x.onAir
  | .wrap => some x.wrapping

/-- The output of a light in a state at a phase (R141). -/
def litAt (pattern : Option Pattern) (phase : Nat) : Bool :=
  match pattern with
  | none => false
  | some q => if q.lit = 0 then decide (q.dark = 0) else decide (q.dark = 0) || decide (phase < q.lit)

/-- The phase one on, wrapping at the pattern's period; with a period of 0, and for OFF, it stays at 0 (R141). -/
def nextPhase (pattern : Option Pattern) (phase : Nat) : Nat :=
  match pattern with
  | none => 0
  | some q => if phase + 1 < q.lit + q.dark then phase + 1 else 0

/-- One light's work: its state derived, its phase restarted or advanced, its marker cleared and its output set (R141). -/
def Light.next (l : Light) (x : Presenter) (state : LightState) : Light :=
  let phase := if state ≠ l.shown ∨ l.changed = true then 0 else nextPhase (x.pattern state) l.phase
  { shown := state, phase := phase, lit := litAt (x.pattern state) phase, changed := false }

/-- The light work of one position (R141). -/
def State.lightWork (s : State) (p : Pos) : State := s.setLight p ((s.light p).next (s.presenter p) (s.lightState p))

/-- The positions in the order the display rotation looks at them (R143). -/
def rotationOrder (first : Pos) : List Pos := (List.finRange 8).map (fun k => first + k)

/-- The display work: one DISPLAY frame for the first enabled position of the rotation (R143, R144). -/
def State.displayWork (s : State) : State :=
  match (rotationOrder s.rotation).find? (fun p => (s.presenter p).enabled) with
  | none => s
  | some p =>
    { s with rotation := p + 1 }.emit .display (.display p (s.light p).shown (s.countdown p (s.light p).shown) s.frameRate)

/-- The frame work of the gallery outputs: the light work of each position in turn, then the display work (R141, R143). -/
def State.outputsWork (s : State) : State := ((List.finRange 8).foldl State.lightWork s).displayWork

end Sys2Proof.Machine
end

