-- ==== Sys2Proof/Machine/TimeBase.lean ====
section
/-! DEFINITION. The frame event and the blocks' frame work at it, and the time base: the reference, the flywheel and relock
(R62 to R67). Times are in quarters of a crystal period, so that every window of R65 and R66 is a whole number. -/

namespace Sys2Proof.Machine

/-! ### The frame event (R62) -/

/-- Every block's frame work, in the order the model carries out what is left over (DESIGN CHOICE: notes/assumptions/3.md). -/
def allWork : List FrameWork :=
  [.sequencer .a, .sequencer .b] ++ (List.finRange 7).map .panel ++ [.scheduler] ++ (List.finRange 12).map .channel ++
    [.status .a, .status .b, .outputs]

/-- One block's frame work. -/
def State.runWork (s : State) : FrameWork → State
  | .panel i => s.panelWork i
  | .sequencer t => s.sequencerWork t
  | .scheduler => s.schedulerWork
  | .channel c => s.channelWork c
  | .status t => s.statusWork t
  | .outputs => s.outputsWork

/-- A block's frame work, when it is still to be carried out at this frame event. DESIGN CHOICE (notes/assumptions/3.md). -/
def State.runDue (s : State) (w : FrameWork) : State := if s.due.contains w then (s.setDue (s.due.erase w)).runWork w else s

/-- What is left of the last frame event's work is carried out. -/
def State.settle (s : State) : State := allWork.foldl State.runDue s

/-- The raw levels of the panel inputs at a frame event (R57). -/
def State.samplePins (s : State) (raw : BitVec 7) : State :=
  (List.finRange 7).foldl (fun s i => s.setInput i { s.input i with raw := raw.getLsbD i.val }) s

/-- The frame is counted, and what the sequencers look at in its frame work stands from here to the next (R14, R41, R42, R51, R52, R62). -/
def State.countFrame (s : State) : State :=
  { s with sfc := s.sfc + 1, counted := s.sfc + 1, sinceFrame := 0, looks := ⟨s.lookNow .a, s.lookNow .b⟩ }

/-- A frame event: the frame work the last one left is carried out first, and then the presenter unit learns from every completion
left in its list (R90); the SFC advances by 1; and every block has its frame work to do, of which that named in `now` is done
here (R62). DESIGN CHOICE (notes/assumptions/3.md): section 5.5 leaves open whether completions still in the list are learnt from
before or after the frame work left over; here the frame work comes first and the learning last. -/
def State.frameEvent (s : State) (e : FrameEvent) : State :=
  let s1 := s.settle.takeAllReadDone
  let s2 := s1.countFrame.samplePins e.raw
  e.now.foldl State.runDue ((s2.setDue allWork).setCut ⟨false, false⟩)

/-- The raw levels as last sampled, with every block's work done in the frame event: what a frame event takes that falls due
while a command's elapsed time runs. -/
def State.sameEvent (s : State) : FrameEvent :=
  { raw := BitVec.ofBoolListLE (s.panel.cells.map (·.raw)) |>.setWidth 7, now := allWork }

/-! ### Periods (R64) -/

/-- A quarter of the nominal period, in quarters of a crystal period: the crystal periods per frame (R64). -/
def FrameRate.quarter : FrameRate → Nat
  | .r25 => 1080000
  | .r2997 => 900900
  | .r30 => 900000
  | .r50 => 540000
  | .r5994 => 450450
  | .r60 => 450000

/-- The nominal period. -/
def State.period (s : State) : Nat := 4 * s.frameRate.quarter

/-! ### The time base's own events (R65, R66) -/

/-- A flywheel tick: a frame event from which the timer runs (R66). -/
def State.tick (s : State) (e : FrameEvent) : State := ({ s with sinceTimer := 0, lastTick := true } : State).frameEvent e

/-- The loss of the reference: FLYWHEEL, the first tick, and REFERENCE raised (R65). -/
def State.loseReference (s : State) (e : FrameEvent) : State :=
  (({ s with reference := .flywheel, qualifying := 0 } : State).raise .reference).tick e

/-- Time passes. -/
def State.advance (s : State) (dt : Nat) : State :=
  { s with sinceFrame := s.sinceFrame + dt, sinceTimer := s.sinceTimer + dt, sincePulse := s.sincePulse + dt }

/-- The time left until the time base's own next event: a tick one nominal period after the timer's start in FLYWHEEL, the loss
1.25 periods after the last frame event in LOCKED (R65, R66). -/
def State.untilOwn (s : State) : Nat :=
  match s.reference with
  | .flywheel => s.period - s.sinceTimer
  | .locked => 5 * s.frameRate.quarter - s.sinceFrame

/-- The time base's own next event. -/
def State.ownEvent (s : State) (e : FrameEvent) : State :=
  match s.reference with
  | .flywheel => s.tick e
  | .locked => s.loseReference e

/-- Time passes, and the time base's own events that fall due strictly within it are made.
DESIGN CHOICE (notes/assumptions/6.md): a pulse at the very moment an own event falls due is taken first. -/
def State.elapse : Nat → Nat → State → State
  | 0, dt, s => s.advance dt
  | fuel + 1, dt, s =>
    if s.untilOwn < dt then
      let s1 := s.advance s.untilOwn
      State.elapse fuel (dt - s.untilOwn) (s1.ownEvent s1.sameEvent)
    else s.advance dt

/-! ### Pulses (R65, R66) -/

/-- The pulse makes a frame event: half a nominal period or more has passed since the last one (R65, R66). -/
def State.pulseCounts (s : State) : Bool := decide (2 * s.frameRate.quarter ≤ s.sinceFrame)

/-- The pulse continues a run: its spacing lies within 0.75 to 1.25 nominal periods (R66). -/
def State.pulseRegular (s : State) : Bool :=
  decide (s.qualifying ≠ 0) && decide (3 * s.frameRate.quarter ≤ s.sincePulse) && decide (s.sincePulse ≤ 5 * s.frameRate.quarter)

/-- A pulse that is not disregarded in FLYWHEEL qualifies: it starts or continues a run, and the fourth of a run relocks and
raises REFERENCE (R66). -/
def State.qualify (s : State) : State :=
  if s.pulseRegular then
    if s.qualifying + 1 < 4 then { s with qualifying := s.qualifying + 1, sincePulse := 0 }
    else ({ s with reference := .locked, qualifying := 0, sincePulse := 0 } : State).raise .reference
  else { s with qualifying := 1, sincePulse := 0 }

/-- A pulse arrives (R65, R66). -/
def State.pulse (s : State) (e : FrameEvent) : State :=
  match s.reference with
  | .locked => if s.pulseCounts then ({ s with lastTick := false, sincePulse := 0 } : State).frameEvent e else s
  | .flywheel =>
    if s.pulseCounts then ({ s.qualify with sinceTimer := 0, lastTick := false } : State).frameEvent e
    else if s.lastTick then { s.qualify with sinceTimer := 0 }
    else { s with qualifying := 0 }

/-- A pulse arrives some time after the time base's last event (R65, R66). -/
def State.pulseAfter (s : State) (dt : Nat) (e : FrameEvent) : State :=
  (State.elapse (dt / s.period + 2) dt s).pulse e

/-- The frame-rate setting changes: the flywheel timer continues from the last frame event, and in FLYWHEEL the qualifying count
becomes 0; the rate already set changes nothing (R67). DEDUCED (notes/assumptions/6.md). -/
def State.setFrameRate (s : State) (r : FrameRate) : State :=
  if r = s.frameRate then s
  else
    match s.reference with
    | .flywheel => { s with frameRate := r, sinceTimer := s.sinceFrame, qualifying := 0 }
    | .locked => { s with frameRate := r }

end Sys2Proof.Machine
end

