-- ==== Sys2Proof/Machine/Requests.lean ====
section
/-! DEFINITION. How a request reaches the part and is answered (R150 to R155), shared by every request's meaning. -/

namespace Sys2Proof.Machine

/-- What a request's rule decides: the result, the body of the answer, and the state it leaves. -/
structure Reply where
  result : Result
  body : Body
  state : State

/-- A refusal: an empty body, and no state changed (R155). -/
def State.refuse (s : State) (r : Result) : Reply := ⟨r, .empty, s⟩

/-- An accepted request: CLAMPED when a setting was stored at its limit, or else OK (R155). -/
def State.accept (s : State) (clamped : Bool) (b : Body) : Reply := ⟨if clamped then .clamped else .ok, b, s⟩

/-- A refusal when a check gives one, or else the request carried out. -/
def State.checked (s : State) (check : Option Result) (served : Reply) : Reply :=
  match check with
  | some r => s.refuse r
  | none => served

/-- A request served when an identifier or code is one of those defined, or else RANGE. -/
def State.ranged (s : State) (v : Option α) (serve : α → Reply) : Reply :=
  match v with
  | some x => serve x
  | none => s.refuse .range

/-- The bytes of a write after its length byte, for a request of fixed size: the request code and the body (R151, section 11.2). -/
def requestLength (code : Nat) : Nat := 1 + (fixedSize code).getD 0

/-- The bytes of a write after its length byte, for an item write request with n cues (section 11.2). -/
def editLength : Edit → Nat
  | .create _ _ _ l => 26 + 7 * l.length
  | .update .. => requestLength 0x02
  | .move .. => requestLength 0x03
  | .retire .. => requestLength 0x04
  | .restore .. => requestLength 0x05
  | .cues _ _ l => 7 + 7 * l.length

/-- A transaction: at the fall of CS# the summary status byte is formed and shifted out, and the bytes given after it (R150). -/
def State.shiftOut (s : State) (bytes : List Byte) : State := { s with sdoStatus := s.summary, sdo := bytes }

/-- A write transaction with so many bytes after its length byte: after the summary status the part shifts out a fill byte for each
(R150). -/
def State.select (s : State) (bytes : Nat) : State := s.shiftOut (List.replicate bytes fill)

/-- The answer stands in the response buffer, which is READY (R152). -/
def Reply.buffered (r : Reply) : State := { r.state with buffer := .ready ⟨r.result, r.body⟩ }

/-- A write transaction of so many bytes after its length byte: with the buffer EMPTY the request is carried out whole and answered in
one step, otherwise it is dropped with the busy bit (R150 to R152). While the part is held in reset the port takes no transaction
(R160). DEDUCED (notes/assumptions/7.md): one transaction is one step. -/
def State.request (s : State) (bytes : Nat) (serve : State → Reply) : State :=
  if s.held then s
  else
    match s.buffer with
    | .empty => (serve (s.select bytes)).buffered
    | _ => s.select bytes

end Sys2Proof.Machine
end

