-- ==== Sys2Proof/Machine/ChannelRequests.lean ====
section
/-! DEFINITION. The channel requests: CHANNEL.CONFIG, CLEAR and READ (R134 to R136). -/

namespace Sys2Proof.Machine

/-- A kind or fault mode that a CHANNEL.CONFIG names is not one of those defined (R134). -/
def channelCodesBad (fields : Nat) (v : ChannelSettings) : Bool :=
  (fields.testBit 0 && (channelKindOf v.kind).isNone) || (fields.testBit 1 && (faultModeOf v.faultMode).isNone)

/-- A setting of a CHANNEL.CONFIG was stored at its limit (R134). -/
def channelClamps (fields : Nat) (v : ChannelSettings) : Bool :=
  (fields.testBit 2 && outside 0 255 v.pollInterval) || (fields.testBit 3 && outside 0 1023 v.silentLimit)
    || (fields.testBit 4 && outside 1 1023 v.retryInterval)

/-- The kind a CHANNEL.CONFIG names is given (R134). -/
def State.configKind (s : State) (c : Chan) (fields : Nat) (v : ChannelSettings) : State :=
  if fields.testBit 0 then s.giveKind c ((channelKindOf v.kind).getD .none) else s

/-- The fault mode a CHANNEL.CONFIG names is given (R134). -/
def State.configMode (s : State) (c : Chan) (fields : Nat) (v : ChannelSettings) : State :=
  if fields.testBit 1 then s.giveFaultMode c ((faultModeOf v.faultMode).getD .latch) else s

/-- The record with its intervals given: a recovery count greater than the new retry interval is lowered to it (R134). -/
def Channel.configured (x : Channel) (fields : Nat) (v : ChannelSettings) : Channel :=
  { x with
    pollInterval := pick (fields.testBit 2) (clampTo 0 255 v.pollInterval) x.pollInterval
    silentLimit := pick (fields.testBit 3) (clampTo 0 1023 v.silentLimit) x.silentLimit
    retryInterval := pick (fields.testBit 4) (clampTo 1 1023 v.retryInterval) x.retryInterval
    recovery := if fields.testBit 4 then min x.recovery (clampTo 1 1023 v.retryInterval) else x.recovery }

/-- A CHANNEL.CONFIG carried out: kind, fault mode and intervals (R134). DEDUCED (notes/assumptions/10.md) in their order. -/
def State.configureChannel (s : State) (c : Chan) (fields : Nat) (v : ChannelSettings) : State :=
  let s1 := (s.configKind c fields v).configMode c fields v
  s1.setChannel c ((s1.channel c).configured fields v)

/-- CHANNEL.CONFIG: fields in the order kind, fault mode, poll interval, silent limit, retry interval. The answer carries the
record as it stands, without the queue (R134), and without the model's own mark. -/
def State.serveChannelConfig (s : State) (channel fields : Nat) (v : ChannelSettings) : Reply :=
  s.ranged (idOf 12 channel) (fun c =>
    if badFieldSet 5 fields || channelCodesBad fields v then s.refuse .range
    else
      let s1 := s.configureChannel c fields v
      s1.accept (channelClamps fields v) (.channelConfig { s1.channel c with queue := [], begun := false }))

/-- CHANNEL.CONFIG (R134). -/
def execChannelConfig (channel fields : Nat) (v : ChannelSettings) (s : State) : Host.Outcome State Fault Refusal :=
  .next (s.request (requestLength 0x40) (fun s => s.serveChannelConfig channel fields v))

/-- CHANNEL.CLEAR (R135). -/
def State.serveChannelClear (s : State) (channel : Nat) : Reply :=
  s.ranged (idOf 12 channel) (fun c => (s.clearChannel c).accept false (.channelCleared ((s.clearChannel c).channel c).state))

/-- CHANNEL.CLEAR (R135). -/
def execChannelClear (channel : Nat) (s : State) : Host.Outcome State Fault Refusal :=
  .next (s.request (requestLength 0x41) (fun s => s.serveChannelClear channel))

/-- What CHANNEL.READ reports of a command (R136). -/
def Command.report (k : Command) : CommandReport :=
  { cue := k.cue, track := k.track, action := k.action, param := k.param, mode := k.mode, tag := k.tag, sendFrame := k.sendFrame
    busy := k.busy }

/-- What CHANNEL.READ reports of a queued cue (R136). -/
def Queued.report (q : Queued) : QueuedReport := { cue := q.cue, track := q.track, action := q.action, fire := q.fire }

/-- What CHANNEL.READ reports of a channel, the command slot and the queue among it (R136). -/
def Channel.report (x : Channel) : ChannelReport :=
  { kind := x.kind, state := x.state, faultMode := x.faultMode, pollInterval := x.pollInterval, silentLimit := x.silentLimit
    retryInterval := x.retryInterval, faultFlag := x.faultFlag, faultCause := x.faultCause, tag := x.tag
    command := x.command.map Command.report, queue := x.queue.map Queued.report, silent := x.silent, poll := x.poll
    guard := x.guard, recovery := x.recovery }

/-- CHANNEL.READ (R136). -/
def State.serveChannelRead (s : State) (channel : Nat) : Reply :=
  s.ranged (idOf 12 channel) (fun c => s.accept false (.channelRead (s.channel c).report))

/-- CHANNEL.READ (R136). -/
def execChannelRead (channel : Nat) (s : State) : Host.Outcome State Fault Refusal :=
  .next (s.request (requestLength 0x42) (fun s => s.serveChannelRead channel))

end Sys2Proof.Machine
end

