-- ==== Sys2Proof/Machine/Events.lean ====
section
/-! DEFINITION. The part's own events: the time base's, and those of the blocks' frame work. A frame-work event carries out its
block's frame work when that is still to be done and the event occurs in it; otherwise it changes nothing
(notes/assumptions/3.md, 4.md). While the part is held in reset none occurs (R160). -/

namespace Sys2Proof.Machine

/-- The state unless the part is held in reset (R160). -/
def State.unlessHeld (s : State) (f : State → State) : State := if s.held then s else f s

/-- One block's frame work carried out, when it is still to be done and its event occurs (DESIGN CHOICE: notes/assumptions/3.md). -/
def State.workWhen (s : State) (w : FrameWork) (occurs : State → Bool) : State :=
  if s.due.contains w && occurs (s.setDue (s.due.erase w)) then s.runDue w else s

/-! ### The time base (R65, R66) -/

/-- A pulse on REF, so long after the time base's last event (R65, R66). -/
def execRefPulse (elapsed : Nat) (e : FrameEvent) (s : State) : Host.Outcome State Fault Refusal :=
  .next (s.unlessHeld (fun s => s.pulseAfter elapsed e))

/-- The flywheel timer expires, in FLYWHEEL (R66). -/
def State.flywheelExpiry (s : State) (e : FrameEvent) : State :=
  match s.reference with
  | .flywheel => (s.advance s.untilOwn).tick e
  | .locked => s

/-- The flywheel timer expires (R66). -/
def execFlywheelTick (e : FrameEvent) (s : State) : Host.Outcome State Fault Refusal :=
  .next (s.unlessHeld (fun s => s.flywheelExpiry e))

/-- The reference is lost, in LOCKED (R65). -/
def State.lossExpiry (s : State) (e : FrameEvent) : State :=
  match s.reference with
  | .locked => (s.advance s.untilOwn).loseReference e
  | .flywheel => s

/-- The reference is lost (R65). -/
def execReferenceLoss (e : FrameEvent) (s : State) : Host.Outcome State Fault Refusal :=
  .next (s.unlessHeld (fun s => s.lossExpiry e))

/-! ### The panel inputs and the sequencers (R49 to R53, R57) -/

/-- A change of a panel input is recognised at this sample (R57). -/
def State.recognises (i : PanelInput) (s : State) : Bool := ((s.input i).sample s.debounce).2

/-- A panel input's debounce count reaches the setting (R57, R58). -/
def execPanelDebounceExpiry (i : PanelInput) (s : State) : Host.Outcome State Fault Refusal :=
  .next (s.unlessHeld (fun s => s.workWhen (.panel i) (State.recognises i)))

/-- The lockout count reaches 0 at this frame work (R49). -/
def State.lockoutEnds (t : Track) (s : State) : Bool := !s.cut.get t && decide ((s.track t).lockoutCount = 1)

/-- A track's lockout count reaches 0 (R49). -/
def execLockoutExpiry (t : Track) (s : State) : Host.Outcome State Fault Refusal :=
  .next (s.unlessHeld (fun s => s.workWhen (.sequencer t) (State.lockoutEnds t)))

/-- The frame work makes a hard-in take (R52, R53). -/
def State.hardInFalls (t : Track) (s : State) : Bool := ((s.beginSequencer t).hardInItem t).isSome

/-- The frame work makes an auto-take (R51, R53). -/
def State.autoFalls (t : Track) (s : State) : Bool := !s.hardInFalls t && (s.autoLook t).isSome

/-- An auto-take (R51). -/
def execAutoTake (t : Track) (s : State) : Host.Outcome State Fault Refusal :=
  .next (s.unlessHeld (fun s => s.workWhen (.sequencer t) (State.autoFalls t)))

/-- A hard-in take (R52). -/
def execHardInTake (t : Track) (s : State) : Host.Outcome State Fault Refusal :=
  .next (s.unlessHeld (fun s => s.workWhen (.sequencer t) (State.hardInFalls t)))

/-- The presenter unit takes the completion at the head of its list (R82, R90). -/
def execPresenterCompletion (s : State) : Host.Outcome State Fault Refusal := .next (s.unlessHeld State.takeReadDone)

/-! ### The cue scheduler (R98, R103) -/

/-- The frame work offers a cue (R98). -/
def State.offers (s : State) : Bool := !s.takeAllCueDone.reachedFiring.isEmpty

/-- The cue scheduler offers every ARMED cue whose fire frame is reached (R98). -/
def execCueOffer (s : State) : Host.Outcome State Fault Refusal :=
  .next (s.unlessHeld (fun s => s.workWhen .scheduler State.offers))

/-- The completion at the head of the cue scheduler's list is taken (R103). -/
def State.takeHeadCueDone (s : State) : State :=
  match s.cuesDone with
  | [] => s
  | d :: l => (s.setCuesDone l).takeCueDone d

/-- The cue scheduler takes a completion (R103, R104). -/
def execCueCompletion (s : State) : Host.Outcome State Fault Refusal := .next (s.unlessHeld State.takeHeadCueDone)

/-! ### The channels (R122 to R131) -/

/-- The channel does the whole of its frame work at a frame event (R122). -/
def ChannelState.works : ChannelState → Bool
  | .offline => false
  | .faulted => false
  | _ => true

/-- A queued cue is aged out at step 1 (R123). -/
def State.agesOut (c : Chan) (s : State) : Bool :=
  decide ((s.channel c).state ≠ .offline) && (s.channel c).queue.any s.agedOut

/-- A queued cue past its tolerance fails LATE (R123). -/
def execCueAgedLate (c : Chan) (s : State) : Host.Outcome State Fault Refusal :=
  .next (s.unlessHeld (fun s => s.workWhen (.channel c) (State.agesOut c)))

/-- The command in the slot of a BUSY channel whose busy count this frame work advances, with the count advanced. -/
def Channel.ticking (x : Channel) : Option Command := if x.counting .busy then x.command.map Command.tick else none

/-- The command's dwell is reached at step 2 (R124). -/
def State.dwellEnds (c : Chan) (s : State) : Bool := ((s.channel c).ticking.map Command.dwellReached).getD false

/-- A command's dwell is reached (R124). -/
def execDwellExpiry (c : Chan) (s : State) : Host.Outcome State Fault Refusal :=
  .next (s.unlessHeld (fun s => s.workWhen (.channel c) (State.dwellEnds c)))

/-- The command's answer timeout is reached at step 2 (R124). -/
def State.timeoutFalls (c : Chan) (s : State) : Bool := ((s.channel c).ticking.map Command.timeoutReached).getD false

/-- A command's answer timeout is reached (R124). -/
def execAnswerTimeout (c : Chan) (s : State) : Host.Outcome State Fault Refusal :=
  .next (s.unlessHeld (fun s => s.workWhen (.channel c) (State.timeoutFalls c)))

/-- The guard ends at step 3 (R122). -/
def State.guardEnds (c : Chan) (s : State) : Bool :=
  (s.channel c).counting .guard && decide ((s.channel c).guard ≤ 1)

/-- A channel's guard count reaches 0 (R122). -/
def execGuardExpiry (c : Chan) (s : State) : Host.Outcome State Fault Refusal :=
  .next (s.unlessHeld (fun s => s.workWhen (.channel c) (State.guardEnds c)))

/-- The recovery ends at step 4 (R131). -/
def State.recoveryEnds (c : Chan) (s : State) : Bool :=
  (s.channel c).counting .recovering && decide ((s.channel c).recovery ≤ 1)

/-- A channel's recovery count reaches 0 (R131). -/
def execRecoveryExpiry (c : Chan) (s : State) : Host.Outcome State Fault Refusal :=
  .next (s.unlessHeld (fun s => s.workWhen (.channel c) (State.recoveryEnds c)))

/-- The silent limit is reached at step 6 (R128). -/
def State.silenceFalls (c : Chan) (s : State) : Bool :=
  (s.channel c).state.works && ((s.afterGrantWork c).channel c).fallsSilent

/-- A channel's silent count reaches its limit (R128). -/
def execSilentFault (c : Chan) (s : State) : Host.Outcome State Fault Refusal :=
  .next (s.unlessHeld (fun s => s.workWhen (.channel c) (State.silenceFalls c)))

/-- A POLL is sent at step 7 (R127). -/
def State.pollFalls (c : Chan) (s : State) : Bool :=
  (s.channel c).state.works && (((s.afterGrantWork c).silenceWork c).channel c).pollsNow

/-- A channel's poll count reaches its interval (R127). -/
def execPoll (c : Chan) (s : State) : Host.Outcome State Fault Refusal :=
  .next (s.unlessHeld (fun s => s.workWhen (.channel c) (State.pollFalls c)))

end Sys2Proof.Machine
end

