-- ==== Sys2Proof/Machine/ItemRequests.lean ====
section
/-! DEFINITION. The item table requests: the six direct writes, ITEM.READ, ITEM.FIND and RUNDOWN.LIST (R12 to R22). -/

namespace Sys2Proof.Machine

/-- Step 7 of R12: a free slot for a CREATE, and enough free cue entries for a list; those of the list that a CUES replaces
count as free (R11). -/
def State.directSpace (s : State) (i : Slot) : EditBody → Bool
  | .create _ _ _ l => s.lowestFree.isSome && decide (l.length ≤ s.freeEntries)
  | .cues l => decide (l.length ≤ s.freeEntries + (s.slot i).cues.length)
  | _ => true

/-- The slot a direct write acts on: for a CREATE the lowest free slot. -/
def State.directSlot (s : State) (e : ParsedEdit) : Slot :=
  match e.body with
  | .create .. => s.lowestFree.getD 0
  | _ => e.slot.getD 0

/-- Steps 2 to 7 of R12. -/
def State.checkDirect (s : State) (e : ParsedEdit) : Option Result :=
  (s.checkEdit s.currentReference (s.directSlot e) e.revision e.body).or
    (if s.directSpace (s.directSlot e) e.body then none else some .noSpace)

/-- The changed event of an edit, handed to the sequencer of the track given: the READY choice (R9, R44). -/
def State.changed (s : State) (hands : Bool) (t : Track) : State := if hands then s.readyChoice t else s

/-- The track whose order or item an edit changes. -/
def EditBody.trackOf (b : EditBody) (x : Item) : Track :=
  match b with
  | .create t _ _ _ => t
  | _ => x.track

/-- A direct write that has passed its checks is carried out, with its changed event (R13 to R19). -/
def State.makeDirect (s : State) (e : ParsedEdit) : State :=
  let i := s.directSlot e
  (s.performEdit i false e.body).changed (e.body.hands (s.slot i)) (e.body.trackOf (s.slot i))

/-- A direct write request: its form, its checks, its effect and its answer, the item's ID and new revision (R12). -/
def State.direct (s : State) (edit : Edit) : Reply :=
  s.ranged edit.parse (fun e =>
    s.checked (s.checkDirect e)
      ((s.makeDirect e).accept e.clamped (.item (s.directSlot e) ((s.makeDirect e).slot (s.directSlot e)).revision)))

/-- ITEM.CREATE, direct (R13). -/
def execItemCreate (track anchor : Nat) (block : RawBlock) (cues : List RawCue) (s : State) : Host.Outcome State Fault Refusal :=
  .next (s.request (editLength (.create track anchor block cues)) (fun s => s.direct (.create track anchor block cues)))

/-- ITEM.UPDATE, direct (R14, R15). -/
def execItemUpdate (id revision fields : Nat) (block : RawBlock) (s : State) : Host.Outcome State Fault Refusal :=
  .next (s.request (editLength (.update id revision fields block)) (fun s => s.direct (.update id revision fields block)))

/-- ITEM.MOVE, direct (R16). -/
def execItemMove (id revision anchor : Nat) (s : State) : Host.Outcome State Fault Refusal :=
  .next (s.request (editLength (.move id revision anchor)) (fun s => s.direct (.move id revision anchor)))

/-- ITEM.RETIRE, direct (R17). -/
def execItemRetire (id revision : Nat) (s : State) : Host.Outcome State Fault Refusal :=
  .next (s.request (editLength (.retire id revision)) (fun s => s.direct (.retire id revision)))

/-- ITEM.RESTORE, direct (R18). -/
def execItemRestore (id revision : Nat) (s : State) : Host.Outcome State Fault Refusal :=
  .next (s.request (editLength (.restore id revision)) (fun s => s.direct (.restore id revision)))

/-- ITEM.CUES, direct (R19). -/
def execItemCues (id revision : Nat) (cues : List RawCue) (s : State) : Host.Outcome State Fault Refusal :=
  .next (s.request (editLength (.cues id revision cues)) (fun s => s.direct (.cues id revision cues)))

/-- The answer of ITEM.READ (R20). -/
def State.itemReport (s : State) (i : Slot) : ItemReport :=
  { freeSlots := s.countSlots .free, freeEntries := s.freeEntries, id := i, item := s.slot i, derived := s.derived i }

/-- ITEM.READ (R20). -/
def State.serveItemRead (s : State) (id : Nat) : Reply :=
  s.ranged (idOf 512 id) (fun i =>
    if (s.slot i).isLive then s.accept false (.itemRead (s.itemReport i)) else s.refuse .notFound)

/-- ITEM.READ (R20). -/
def execItemRead (id : Nat) (s : State) : Host.Outcome State Fault Refusal :=
  .next (s.request (requestLength 0x07) (fun s => s.serveItemRead id))

/-- ITEM.FIND (R21). -/
def State.serveItemFind (s : State) (key : Nat) : Reply :=
  if key = 0 then s.refuse .range
  else
    match s.findKey (BitVec.ofNat 32 key) with
    | some i => s.accept false (.item i (s.slot i).revision)
    | none => s.refuse .notFound

/-- ITEM.FIND (R21). -/
def execItemFind (key : Nat) (s : State) : Host.Outcome State Fault Refusal :=
  .next (s.request (requestLength 0x08) (fun s => s.serveItemFind key))

/-- The item a list starts after: the head, or a live item of the track (R22). -/
def State.listStart (s : State) (t : Track) (start : Nat) : Option (Option Slot) :=
  (anchorOf start).filter (fun a => s.anchorOk t none a)

/-- The part of an order that stands after a starting point (R22). -/
def itemsAfter (start : Option Slot) (l : List Slot) : List Slot :=
  match start with
  | none => l
  | some a => (l.dropWhile (fun i => decide (i ≠ a))).drop 1

/-- One item of the answer of RUNDOWN.LIST, with D, F and B (R22). -/
def State.listRow (s : State) (i : Slot) : ListRow :=
  let x := s.slot i
  let d := s.derived i
  { id := i, revision := x.revision, state := x.state, floated := x.fields.floated, working := d.working, front := d.front
    back := d.back }

/-- RUNDOWN.LIST: the items after the starting point, up to the count, and whether further items stand after them (R22). -/
def State.serveRundownList (s : State) (track start count : Nat) : Reply :=
  s.ranged (trackOf track) (fun t =>
    s.ranged (s.listStart t start) (fun a =>
      let l := itemsAfter a (s.order t)
      let n := clampTo 1 16 count
      s.accept (outside 1 16 count) (.rundown ((l.take n).map s.listRow) (decide (n < l.length)))))

/-- RUNDOWN.LIST (R22). -/
def execRundownList (track start count : Nat) (s : State) : Host.Outcome State Fault Refusal :=
  .next (s.request (requestLength 0x09) (fun s => s.serveRundownList track start count))

end Sys2Proof.Machine
end

