-- ==== Sys2Proof/Machine/GroupRequests.lean ====
section
/-! DEFINITION. The edit group requests: a staged edit, GROUP.OPEN, GROUP.LAUNCH, GROUP.DISCARD and GROUP.READ (R26 to R38). -/

namespace Sys2Proof.Machine

/-- The answer of a staged edit accepted into a group (R28): its index, its item and that item's revision as it stands. -/
def State.stagedReport (s : State) (before : State) (g : GroupNo) (i : Slot) : StagedReport :=
  { group := g, index := (before.group g).edits.length, slot := i, revision := (s.slot i).revision, freeStaging := s.freeStaging }

/-- A write request with a group number: its form, the checks of R27, and its staging (R27, R28). -/
def State.serveStaged (s : State) (g : GroupNo) (edit : Edit) : Reply :=
  s.ranged edit.parse (fun e =>
    s.checked (s.checkStaged (s.group g) e)
      ((s.stage g e).accept e.clamped (.staged ((s.stage g e).stagedReport s g (s.stagedSlot e)))))

/-- A write request by its group field: a group number stages it, FFh is direct, and any other value is RANGE (R12 step 1,
R27). -/
def State.serveEdit (s : State) (group : Nat) (edit : Edit) : Reply :=
  if group = 0xFF then s.direct edit else s.ranged (idOf 4 group) (fun g => s.serveStaged g edit)

/-- A staged edit (R27, R28). -/
def execStagedEdit (group : Nat) (edit : Edit) (s : State) : Host.Outcome State Fault Refusal :=
  .next (s.request (editLength edit) (fun s => s.serveEdit group edit))

/-- The record of a group opened for a track (R26). -/
def Group.openFor (x : Group) (t : Track) : Group :=
  { x with state := .opened, track := t, launch := none, edits := [], last := .none }

/-- GROUP.OPEN (R26). -/
def State.serveGroupOpen (s : State) (group track : Nat) : Reply :=
  s.ranged (idOf 4 group) (fun g =>
    s.ranged (trackOf track) (fun t =>
      if (s.group g).state = .idle then
        let s1 := s.setGroup g ((s.group g).openFor t)
        s1.accept false (.groupOpened g s1.freeStaging)
      else s.refuse .state))

/-- GROUP.OPEN (R26). -/
def execGroupOpen (group track : Nat) (s : State) : Host.Outcome State Fault Refusal :=
  .next (s.request (requestLength 0x10) (fun s => s.serveGroupOpen group track))

/-- The group's place in its track's armed queue, while it is ARMED (R31, R38). -/
def State.placeOf (s : State) (g : GroupNo) : Option Nat :=
  if (s.group g).state = .armed then some ((s.armedQueue (s.group g).track).idxOf g) else none

/-- A launch to the boundary with an item on air: the group becomes ARMED at the tail of its track's queue (R31, R34). -/
def State.armGroup (s : State) (g : GroupNo) : State :=
  let t := (s.group g).track
  (s.setGroup g { s.group g with state := .armed }).setArmed t (s.armedQueue t ++ [g])

/-- An OPEN group is launched: applied at once for NOW or with nothing on air in its track, armed otherwise (R31). -/
def State.launchGroup (s : State) (g : GroupNo) (m : LaunchMode) : State :=
  let s1 := s.setGroup g { s.group g with launch := some m }
  if m = .now ∨ (s.track (s.group g).track).onAir = none then s1.applyNow g else s1.armGroup g

/-- GROUP.LAUNCH (R31). -/
def State.serveGroupLaunch (s : State) (group mode : Nat) : Reply :=
  s.ranged (idOf 4 group) (fun g =>
    s.ranged (launchModeOf mode) (fun m =>
      if (s.group g).state = .opened then
        let s1 := s.launchGroup g m
        s1.accept false (.launched (s1.group g).state (s1.group g).last (s1.placeOf g))
      else s.refuse .state))

/-- GROUP.LAUNCH (R31). -/
def execGroupLaunch (group mode : Nat) (s : State) : Host.Outcome State Fault Refusal :=
  .next (s.request (requestLength 0x11) (fun s => s.serveGroupLaunch group mode))

/-- GROUP.DISCARD (R37). -/
def State.serveGroupDiscard (s : State) (group : Nat) : Reply :=
  s.ranged (idOf 4 group) (fun g =>
    if (s.group g).state = .idle then s.refuse .state
    else (s.discardGroup g).accept false (.discarded (s.discardGroup g).freeStaging))

/-- GROUP.DISCARD (R37). -/
def execGroupDiscard (group : Nat) (s : State) : Host.Outcome State Fault Refusal :=
  .next (s.request (requestLength 0x12) (fun s => s.serveGroupDiscard group))

/-- The reserved slots of a group in ascending order (R38). -/
def ascending (l : List Slot) : List Slot := (List.finRange 512).filter (fun i => l.contains i)

/-- The answer of GROUP.READ (R38). -/
def State.groupReport (s : State) (g : GroupNo) : GroupReport :=
  let x := s.group g
  { state := x.state, track := x.track, launch := x.launch, place := s.placeOf g
    edits := x.edits.map (fun e => ⟨e.body.code, e.slot, e.revision⟩)
    reserved := ascending x.reserved, reservedEntries := x.reservedEntries, last := x.last, freeStaging := s.freeStaging }

/-- GROUP.READ (R38). -/
def State.serveGroupRead (s : State) (group : Nat) : Reply :=
  s.ranged (idOf 4 group) (fun g => s.accept false (.groupRead (s.groupReport g)))

/-- GROUP.READ (R38). -/
def execGroupRead (group : Nat) (s : State) : Host.Outcome State Fault Refusal :=
  .next (s.request (requestLength 0x13) (fun s => s.serveGroupRead group))

end Sys2Proof.Machine
end

