-- ==== Sys2Proof/Machine/LinkEvents.lean ====
section
/-! DEFINITION. Frames arriving on the gallery links, and the end of a frame sent (R126, R147, R164). A frame reaches the link's
receiver byte by byte, so a receiver that is still taking an earlier frame takes its bytes as data (R164). While the part is
held in reset, frames are disregarded (R160). -/

namespace Sys2Proof.Machine

/-- An ACCEPT frame arrives on a device link (R124, R126). -/
def execAccept (c : Chan) (tag : Byte) (s : State) : Host.Outcome State Fault Refusal :=
  .next (s.unlessHeld (fun s => s.receive (.device c) (linkFrame 0x81 [tag])))

/-- A REFUSE frame arrives on a device link (R124, R126). -/
def execRefuse (c : Chan) (tag : Byte) (s : State) : Host.Outcome State Fault Refusal :=
  .next (s.unlessHeld (fun s => s.receive (.device c) (linkFrame 0x82 [tag])))

/-- A STATUS frame arrives on a device link (R126). -/
def execStatus (c : Chan) (value : Byte) (s : State) : Host.Outcome State Fault Refusal :=
  .next (s.unlessHeld (fun s => s.receive (.device c) (linkFrame 0x83 [value])))

/-- A frame of another type arrives on a device link (R126). -/
def execDeviceFrameOther (c : Chan) (type : Byte) (payload : List Byte) (s : State) : Host.Outcome State Fault Refusal :=
  .next (s.unlessHeld (fun s => s.receive (.device c) (linkFrame type payload)))

/-- An END frame arrives on the prompter link (R147). -/
def execEndReport (script : Word32) (track : Byte) (s : State) : Host.Outcome State Fault Refusal :=
  .next (s.unlessHeld (fun s => s.receive .prompter (linkFrame 0x91 (beBytes 4 script.toNat ++ [track]))))

/-- A link finishes sending a frame and takes the next from its transmit queue (R164). -/
def execLinkTransmitDone (k : Link) (s : State) : Host.Outcome State Fault Refusal :=
  .next (s.unlessHeld (fun s => s.setTx k (s.tx k).sent))

/-- Bytes arrive that the receiver takes by the rules of R164: those of a frame that fails a check are discarded (R126,
R147, R164). -/
def execDiscardedLinkFrame (k : RxLink) (bytes : List Byte) (s : State) : Host.Outcome State Fault Refusal :=
  .next (s.unlessHeld (fun s => s.receive k bytes))

end Sys2Proof.Machine
end

