-- ==== Sys2Proof/Machine/Responses.lean ====
section
/-! DEFINITION. The bytes of responses: the codes, the layouts of the item bodies, and the encoding of every other body (R163, section
11.2). -/

namespace Sys2Proof.Machine

/-! ### Codes (section 11.2) -/

/-- Reference state codes. -/
def RefState.code : RefState → Nat
  | .locked => 0
  | .flywheel => 1

/-- Over/under status codes. -/
def Status.code : Status → Nat
  | .none => 0
  | .onTime => 1
  | .overTime => 2
  | .underTime => 3

/-- Auto-take condition codes. -/
def AutoCondition.code : AutoCondition → Nat
  | .none => 0
  | .pending => 1
  | .waitingHold => 2
  | .waitingLockout => 3
  | .waitingReady => 4

/-- Launch mode codes. -/
def LaunchMode.code : LaunchMode → Nat
  | .now => 0
  | .boundary => 1

/-- Group state codes. -/
def GroupState.code : GroupState → Nat
  | .idle => 0
  | .opened => 1
  | .armed => 2

/-- Completion mode codes. -/
def Mode.code : Mode → Nat
  | .timed => 0
  | .answer => 1
  | .early => 2

/-- Channel kind codes. -/
def ChannelKind.code : ChannelKind → Nat
  | .none => 0
  | .clip => 1
  | .gfx => 2
  | .audio => 3
  | .aux => 4

/-- Fault mode codes. -/
def FaultMode.code : FaultMode → Nat
  | .latch => 0
  | .retry => 1
  | .report => 2
  | .ignore => 3

/-- Channel state codes. -/
def ChannelState.code : ChannelState → Nat
  | .offline => 0
  | .ready => 1
  | .busy => 2
  | .guard => 3
  | .faulted => 4
  | .recovering => 5

/-- Channel fault cause codes. -/
def FaultCause.code : FaultCause → Nat
  | .timeout => 0
  | .silent => 1
  | .deviceError => 2

/-- Measurement kind codes. -/
def MeasureKind.code : MeasureKind → Nat
  | .prompter => 0
  | .actual => 1

/-- Learning outcome codes. -/
def Learning.code : Learning → Nat
  | .learned => 0
  | .held => 1
  | .reseed => 2

/-! ### The item bodies (section 11.2) -/

/-- The item field block: 20 bytes. -/
def Fields.bytes (f : Fields) : List Byte :=
  beBytes 4 f.key.toNat ++ beBytes 1 f.kind.code ++
  beBytes 1 (bitsNat [f.floated, f.timed, f.auto, f.presenter.isSome, f.hardIn.isSome, f.script.isSome]) ++
  beBytes 1 ((f.presenter.map (·.val)).getD 0) ++ beBytes 2 f.words ++ beBytes 3 f.planned ++
  beBytes 4 ((f.hardIn.map (·.toNat)).getD 0) ++ beBytes 4 ((f.script.map (·.toNat)).getD 0)

/-- The seven bytes of a cue entry as the host gave it. -/
def CueSpec.bytes (c : CueSpec) : List Byte :=
  beBytes 1 (c.phase.code * 16 + c.action.code) ++ beBytes 2 c.offset ++ beBytes 2 c.target.toNat ++ beBytes 2 c.param.toNat

/-- The channel and fire frame of a cue are reported while it is ARMED, QUEUED or SENT (R20). -/
def CueState.waits : CueState → Bool
  | .armed => true
  | .queued => true
  | .sent => true
  | _ => false

/-- A cue in the body of ITEM.READ: 15 bytes. -/
def Cue.bytes (q : Cue) : List Byte :=
  q.spec.bytes ++
  beBytes 1 (q.state.code + 8 * q.lateFired.toNat + 16 * ((q.failCause.map FailCause.code).getD 0)) ++
  beBytes 1 q.lateness ++ beBytes 1 (routeCode q.resolved) ++
  beBytes 1 (if q.state.waits then (q.resolved.map (·.delivery.channel.val)).getD 0xFF else 0xFF) ++
  beBytes 4 (if q.state.waits then (q.fire.map (·.toNat)).getD 0 else 0)

/-- A frame value or count that may be absent: four bytes, 0 when absent (R163). -/
def optBytes (v : Option Nat) : List Byte := beBytes 4 (v.getD 0)

/-- A signed figure that may be absent: two's complement over four bytes (R163). -/
def optSigned (v : Option Int) : List Byte := beBytes 4 (BitVec.ofInt 32 (v.getD 0)).toNat

/-- The body of ITEM.READ (section 11.2). -/
def ItemReport.bytes (r : ItemReport) : List Byte :=
  let x := r.item
  let d := r.derived
  beBytes 2 r.freeSlots ++ beBytes 2 r.freeEntries ++ beBytes 2 r.id.val ++ beBytes 2 x.revision.toNat ++ beBytes 2 x.airing.toNat ++
  beBytes 1 (trackCode x.track) ++ beBytes 1 x.state.code ++ x.fields.bytes ++
  beBytes 2 (bitsNat [x.start.isSome, x.actual.isSome, x.prompterEnd.isSome, x.cueFault, d.estimate.isSome, d.base.isSome,
    d.working.isSome, d.front.isSome, d.back.isSome, d.gap.isSome]) ++
  optBytes (x.start.map (·.toNat)) ++ optBytes x.actual ++ optBytes (x.prompterEnd.map (·.toNat)) ++
  optBytes d.estimate ++ optBytes d.base ++ optBytes d.working ++ optBytes (d.front.map (·.toNat)) ++
  optBytes (d.back.map (·.toNat)) ++ optSigned d.gap ++
  beBytes 1 x.cues.length ++ x.cues.flatMap Cue.bytes

/-- An item in the body of RUNDOWN.LIST: 17 bytes (section 11.2). -/
def ListRow.bytes (r : ListRow) : List Byte :=
  beBytes 2 r.id.val ++ beBytes 2 r.revision.toNat ++
  beBytes 1 (r.state.code + 8 * bitsNat [r.floated, r.working.isSome, r.front.isSome, r.back.isSome]) ++
  optBytes r.working ++ optBytes (r.front.map (·.toNat)) ++ optBytes (r.back.map (·.toNat))

/-- A staged edit in the body of GROUP.READ: 5 bytes (section 11.2). -/
def EditHead.bytes (e : EditHead) : List Byte :=
  beBytes 1 e.code ++ beBytes 2 e.slot.val ++ beBytes 2 ((e.revision.map (·.toNat)).getD 0)

/-! ### Bodies with no layout table (R163)

Section 11.1 and section 11.2 fix how each field of such a body is encoded, and no table fixes where it stands: the order of the
fields and the width of a number are free values (notes/assumptions/1.md). -/

/-- A field of a response body as section 11.1 has it encoded. -/
inductive BodyField where
  /-- A field whose bytes the codes and widths of section 11.2 give. -/
  | bytes (l : List Byte)
  /-- A number whose width no table gives, of at least the bytes that its range takes. -/
  | number (least v : Nat)
  /-- A yes or no: a byte, or a flag bit. -/
  | yesNo (b : Bool)
  /-- The presence bit of an optional field. -/
  | present (b : Bool)

/-- An unsigned field of `n` bytes. -/
def BodyField.nat (n v : Nat) : BodyField := .bytes (beBytes n v)

/-- A code or an identifier of one byte. -/
def BodyField.code (v : Nat) : BodyField := .nat 1 v

/-- An item ID: two bytes. -/
def BodyField.item (i : Slot) : BodyField := .nat 2 i.val

/-- A frame value: four bytes. -/
def BodyField.frame (f : Frame) : BodyField := .nat 4 f.toNat

/-- The bytes of an absent field, which are sent as 0 (R163). -/
def BodyField.zero : BodyField → BodyField
  | .bytes l => .bytes (List.replicate l.length 0)
  | .number k _ => .number k 0
  | .yesNo _ => .yesNo false
  | .present _ => .present false

/-- An optional field, or record: its presence bit, and its fields, sent as 0 when it is absent (R163). That a record that is there or
absent as a whole (a last sample, a command slot) has one presence bit for all its fields is a DESIGN CHOICE (notes/assumptions/1.md).
`shape` stands for any value. -/
def BodyField.optional (v : Option α) (shape : α) (f : α → List BodyField) : List BodyField :=
  .present v.isSome ::
    match v with
    | some x => f x
    | none => (f shape).map BodyField.zero

/-- An optional item ID. -/
def BodyField.optItem (v : Option Slot) : List BodyField := BodyField.optional v 0 (fun i => [.item i])

/-- An optional frame value. -/
def BodyField.optFrame (v : Option Frame) : List BodyField := BodyField.optional v 0 (fun f => [.frame f])

/-- An optional number whose range takes so many bytes. -/
def BodyField.optNumber (least : Nat) (v : Option Nat) : List BodyField := BodyField.optional v 0 (fun n => [.number least n])

/-- A list of rows: what the table does not give ahead of them, and the rows in order. -/
def BodyField.rows (l : Layout) (rows : List (List Byte)) : BodyField := .bytes (Config.listLead l rows.length ++ rows.flatten)

/-- Two's complement over `n` bytes, most significant byte first (R163). -/
def signedBytes (n : Nat) (v : Int) : List Byte := beBytes n (v % (256 ^ n : Nat)).toNat

/-- The bits of a frame that stand in its presence or flags bytes (R163). -/
def BodyField.flag? (l : Layout) (n : Nat) : BodyField → Option Bool
  | .bytes _ => none
  | .number .. => none
  | .yesNo b => if Config.asFlag l n then some b else none
  | .present b => some b

/-- The bytes of a field that is not a flag bit. -/
def BodyField.encode (l : Layout) (n : Nat) : BodyField → List Byte
  | .bytes x => x
  | .number least v => beBytes (max least (Config.width l n)) v
  | .yesNo b => beBytes 1 b.toNat
  | .present _ => []

/-- One numbered thing put among others in ascending rank. -/
def insertRanked (l : Layout) (x : Nat × α) : List (Nat × α) → List (Nat × α)
  | [] => [x]
  | y :: r => if Config.rank l x.1 ≤ Config.rank l y.1 then x :: y :: r else y :: insertRanked l x r

/-- Numbered things in ascending rank: the order, whatever it is, in which they stand in a frame. -/
def ranked (l : Layout) (xs : List (Nat × α)) : List (Nat × α) := xs.foldr (insertRanked l) []

/-- The presence or flags bytes of a frame: the flag bits from bit 0, in as many bytes as they take. -/
def flagBytes (bits : List Bool) : List Byte := beBytes ((bits.length + 7) / 8) (bitsNat bits)

/-- The bytes of a body of fields: each field's own bytes and the flags bytes, in the body's order. -/
def fieldBytes (l : Layout) (fs : List BodyField) : List Byte :=
  let xs : List (Nat × BodyField) := (List.range fs.length).zip fs
  let bits := xs.filterMap (fun x => (x.2.flag? l x.1).map (fun b => (x.1, b)))
  let plain := (xs.filter (fun x => (x.2.flag? l x.1).isNone)).map (fun x => (x.1, x.2.encode l x.1))
  ((ranked l (plain ++ [(fs.length, flagBytes ((ranked l bits).map (·.2)))])).map (·.2)).flatten

/-! ### The fields of each body, in the order of the rule that lists them -/

/-- The fields of the event flags or the mask: two bytes, bit 0 TAKE_A (section 11.2). -/
def EventSet.field (f : EventSet) : BodyField := .nat 2 (bitsNat f.bits)

/-- The delivery fields of a route (R107). -/
def Delivery.fields (d : Delivery) : List BodyField :=
  [.code d.channel.val, .number 1 d.preroll, .code d.mode.code, .number 1 d.dwell, .number 1 d.answerTimeout, .number 1 d.guard,
   .number 1 d.tolerance]

/-- The last result of a group: its code, with the cause and the index when REJECTED (R38, section 11.2). That the bytes of the cause and
the index stand with NONE and APPLIED too, sent as 0 and with no presence bit, is a DESIGN CHOICE (notes/assumptions/1.md). -/
def LastResult.fields : LastResult → List BodyField
  | .none => [.code 0, .code 0, .number 1 0]
  | .applied => [.code 1, .code 0, .number 1 0]
  | .rejected cause k => [.code 2, .code cause.code, .number 1 k]

/-- The configuration of a track but its host hold (R41). -/
def trackFields (takeDelay lockout band hysteresis : Nat) (hardOut : Option Frame) : List BodyField :=
  List.flatten [
    [.number 1 takeDelay, .number 1 lockout, .number 2 band, .number 2 hysteresis],
    BodyField.optFrame hardOut]

/-- The configuration that TRACK.CONFIG answers (R41). -/
def TrackConfiguration.fields (x : TrackConfiguration) : List BodyField :=
  List.flatten [
    trackFields x.takeDelay x.lockout x.band x.hysteresis x.hardOut,
    [.yesNo x.hostHold]]

/-- A panel HOLD level: INACTIVE 0, ACTIVE 1 (section 11.2). -/
def levelField (active : Bool) : BodyField := .code active.toNat

/-- The answer of TRACK.READ (R43). -/
def TrackReport.fields (r : TrackReport) : List BodyField :=
  let x := r.record
  List.flatten [
    trackFields x.takeDelay x.lockout x.band x.hysteresis x.hardOut,
    [.yesNo x.hostHold, levelField r.panelHold, .yesNo r.effectiveHold],
    BodyField.optItem x.onAir,
    BodyField.optItem x.ready,
    [.number 1 x.lockoutCount],
    BodyField.optFrame x.lastTake,
    [.code r.auto.code],
    BodyField.optFrame r.autoFrame,
    [.code r.status.code],
    BodyField.optional r.overUnder 0 (fun u => [.bytes (signedBytes 4 u)]),
    [.rows .trackRead (r.armed.map (fun g => beBytes 1 g.val))]]

/-- The last sample of a presenter (R86). R163 names G and U as its signed values: that the difference d is another, of four bytes as they
are, is DEDUCED (notes/assumptions/1.md). -/
def Sample.fields (x : Sample) : List BodyField :=
  List.flatten [
    [.item x.item, .code (trackCode x.track), .code x.kind.code, .number 4 x.measure, .number 2 x.words,
     .number 2 x.rate, .bytes (signedBytes 4 x.difference)],
    BodyField.optNumber 1 x.shift,
    [.code x.outcome.code, .number 2 x.rateAfter]]

/-- A sample that stands for any when a presenter has none. -/
def Sample.shape : Sample := ⟨0, .a, .prompter, 0, 0, 0, 0, none, .learned, 0⟩

/-- The two counts of a light pattern. -/
def Pattern.fields (x : Pattern) : List BodyField := [.number 1 x.lit, .number 1 x.dark]

/-- A presenter record (R79). -/
def Presenter.fields (x : Presenter) : List BodyField :=
  List.flatten [
    [.yesNo x.enabled, .number 2 x.rate, .yesNo x.learn, .number 1 x.slowShift, .number 1 x.fastShift, .number 2 x.fastBound,
     .number 2 x.haltBand, .number 2 x.minWords, .number 1 x.outliers, .number 2 x.wrap],
    x.standby.fields,
    x.onAir.fields,
    x.wrapping.fields,
    BodyField.optional x.last Sample.shape Sample.fields]

/-- A route entry with its GLOBAL flag (R107, R114). -/
def routeFields (x : Route) (isGlobal : Bool) : List BodyField :=
  List.flatten [
    [.yesNo x.enabled, .nat 2 x.base.toNat, .nat 2 x.mask.toNat, .code x.tracks.toNat, .code x.actions.toNat],
    x.delivery.fields,
    [.yesNo isGlobal]]

/-- The default route (R110). -/
def DefaultRoute.fields (x : DefaultRoute) : List BodyField := .yesNo x.enabled :: x.delivery.fields

/-- The identity of a cue: its slot, airing and index. -/
def CueId.fields (x : CueId) : List BodyField := [.item x.slot, .nat 2 x.airing.toNat, .number 1 x.index]

/-- The command slot as CHANNEL.READ reports it (R136). -/
def CommandReport.fields (x : CommandReport) : List BodyField :=
  List.flatten [
    x.cue.fields,
    [.code (trackCode x.track), .code x.action.code, .nat 2 x.param.toNat, .code x.mode.code, .code x.tag.toNat,
     .frame x.sendFrame, .number 1 x.busy]]

/-- A queued cue as CHANNEL.READ reports it (R136). -/
def QueuedReport.fields (x : QueuedReport) : List BodyField :=
  List.flatten [
    x.cue.fields,
    [.code (trackCode x.track), .code x.action.code, .frame x.fire]]

/-- The command slot as the record of CHANNEL.CONFIG's answer holds it (R117, R134). -/
def Command.fields (x : Command) : List BodyField :=
  List.flatten [
    x.cue.fields,
    [.code (trackCode x.track), .code x.action.code, .nat 2 x.param.toNat, .code x.mode.code, .number 1 x.dwell,
     .number 1 x.answerTimeout, .number 1 x.guard, .code x.tag.toNat, .frame x.sendFrame, .number 1 x.busy]]

/-- A command that stands for any when the slot is empty. -/
def Command.shape : Command := ⟨⟨0, 0, 0⟩, .a, .load, 0, .timed, 0, 0, 0, 0, 0, 0⟩

/-- The settings, the state and the fault of a channel, and its tag counter (R117). -/
def channelFields (kind : ChannelKind) (state : ChannelState) (mode : FaultMode) (poll silent retry : Nat) (fault : Bool)
    (cause : Option FaultCause) (tag : BitVec 4) : List BodyField :=
  List.flatten [
    [.code kind.code, .code state.code, .code mode.code, .number 1 poll, .number 2 silent, .number 2 retry, .yesNo fault],
    BodyField.optional cause .timeout (fun x => [.code x.code]),
    [.code tag.toNat]]

/-- The answer of CHANNEL.READ (R136). -/
def ChannelReport.fields (x : ChannelReport) : List BodyField :=
  List.flatten [
    channelFields x.kind x.state x.faultMode x.pollInterval x.silentLimit x.retryInterval x.faultFlag x.faultCause x.tag,
    BodyField.optional x.command ⟨⟨0, 0, 0⟩, .a, .load, 0, .timed, 0, 0, 0⟩ CommandReport.fields,
    [.number 1 x.queue.length, .rows .channelRead (x.queue.map (fun q => fieldBytes .queuedRow q.fields)), .number 2 x.silent,
     .number 1 x.poll, .number 1 x.guard, .number 2 x.recovery]]

/-- The record that CHANNEL.CONFIG answers, without its queue (R134). -/
def Channel.fields (x : Channel) : List BodyField :=
  List.flatten [
    channelFields x.kind x.state x.faultMode x.pollInterval x.silentLimit x.retryInterval x.faultFlag x.faultCause x.tag,
    BodyField.optional x.command Command.shape Command.fields,
    [.number 2 x.silent, .number 1 x.poll, .number 1 x.guard, .number 2 x.recovery]]

/-- The answer of GROUP.READ (R38): each edit in five bytes, each reserved slot in two (section 11.2). -/
def GroupReport.fields (r : GroupReport) : List BodyField :=
  List.flatten [
    [.code r.state.code, .code (trackCode r.track)],
    BodyField.optional r.launch .now (fun m => [.code m.code]),
    BodyField.optNumber 1 r.place,
    [.number 1 r.edits.length, .rows .groupEdits (r.edits.map EditHead.bytes),
     .rows .groupReserved (r.reserved.map (fun (i : Slot) => beBytes 2 i.val)), .number 2 r.reservedEntries],
    r.last.fields,
    [.number 1 r.freeStaging]]

/-- The answer of TRACK.TAKE (R50). That the ON_AIR ID and its start have presence bits, though R50 never gives them absent, and that the
actual has one apart from that of the DONE ID, is a DESIGN CHOICE (notes/assumptions/1.md). -/
def TakeReport.fields (r : TakeReport) : List BodyField :=
  List.flatten [
    BodyField.optItem r.onAir,
    BodyField.optFrame r.start,
    BodyField.optItem r.done,
    BodyField.optNumber 4 r.actual,
    BodyField.optItem r.ready]

/-- The answer of PART.CONFIG and PART.READ (R159). -/
def PartReport.fields (r : PartReport) : List BodyField :=
  List.flatten [
    [r.mask.field, .code r.frameRate.code, .number 1 r.debounce],
    r.defaultRoute.fields,
    [r.flags.field]]

/-- The answer of ROUTE.TEST (R115): the route number with its delivery fields, and the entry passed over, an absent route number as FFh
(section 11.2). That UNROUTED is the route number FFh, that one presence bit stands for the seven delivery fields, and that a
passed-over entry that is absent is FFh without a presence bit, are a DESIGN CHOICE (notes/assumptions/1.md). -/
def testFields (resolved : Option Resolved) (passedOver : Option RouteNo) : List BodyField :=
  List.flatten [
    .code (routeCode resolved) :: BodyField.optional (resolved.map (·.delivery)) {} Delivery.fields,
    [.code ((passedOver.map Fin.val).getD 0xFF)]]

/-- The bytes of a response body; a body has at most 1,020 (R163). ITEM.READ's and RUNDOWN.LIST's items follow their tables; the
others are their fields in an order, and with widths, that are free values (DESIGN CHOICE: notes/assumptions/1.md). In PRESENTER.READ's
body the rate, which R89 names among the fields of R79 and once more, stands once, in the record (DESIGN CHOICE:
notes/assumptions/1.md). -/
def Body.bytes (b : Body) : List Byte :=
  (match b with
   | .empty => []
   | .item i r => fieldBytes .item [.item i, .nat 2 r.toNat]
   | .itemRead r => r.bytes
   | .rundown rows further =>
     fieldBytes .rundown [.number 1 rows.length, .yesNo further, .rows .rundown (rows.map ListRow.bytes)]
   | .groupOpened g n => fieldBytes .groupOpened [.code g.val, .number 1 n]
   | .staged r =>
     fieldBytes .staged [.code r.group.val, .number 1 r.index, .item r.slot, .nat 2 r.revision.toNat, .number 1 r.freeStaging]
   | .launched x last place => fieldBytes .launched (List.flatten [[.code x.code], last.fields, BodyField.optNumber 1 place])
   | .discarded n => fieldBytes .discarded [.number 1 n]
   | .groupRead r => fieldBytes .groupRead r.fields
   | .taken r => fieldBytes .taken r.fields
   | .skipped i r => fieldBytes .skipped (.item i :: BodyField.optItem r)
   | .hold host panel effective => fieldBytes .hold [.yesNo host, levelField panel, .yesNo effective]
   | .trackConfig x => fieldBytes .trackConfig x.fields
   | .trackRead r => fieldBytes .trackRead r.fields
   | .trackReset r => fieldBytes .trackReset (BodyField.optItem r)
   | .timeSet x y => fieldBytes .timeSet [.frame x, .frame y]
   | .timeRead x ref rate n => fieldBytes .timeRead (.frame x :: .code ref.code :: .code rate.code :: BodyField.optNumber 1 n)
   | .presenterConfig x => fieldBytes .presenterConfig x.fields
   | .seeded r n => fieldBytes .seeded [.number 2 r, .number 1 n]
   | .presenterRead x n => fieldBytes .presenterRead (List.flatten [x.fields, [.number 2 n]])
   | .route x isGlobal => fieldBytes .route (routeFields x isGlobal)
   | .defaultRoute x => fieldBytes .defaultRoute x.fields
   | .routeTest x n => fieldBytes .routeTest (testFields x n)
   | .channelConfig x => fieldBytes .channelConfig x.fields
   | .channelCleared x => fieldBytes .channelCleared [.code x.code]
   | .channelRead r => fieldBytes .channelRead r.fields
   | .events f m => fieldBytes .events [f.field, m.field]
   | .part r => fieldBytes .part r.fields).take Config.maxBody

/-- The fill that pads a body to the next multiple of four (R163). -/
def padding (n : Nat) : Nat := (4 - n % 4) % 4

/-- What a response shifts out after the summary status: result, length in quads, body and padding (section 11.2, R163). -/
def Answer.bytes (a : Answer) : List Byte :=
  let b := a.body.bytes
  let p := b ++ List.replicate (padding b.length) fill
  BitVec.ofNat 8 a.result.code :: BitVec.ofNat 8 (p.length / 4) :: p

end Sys2Proof.Machine
end

