-- ==== Sys2Proof/Machine/PartRequests.lean ====
section
/-! DEFINITION. The control link's own requests and transactions, and the resets (R149 to R161). -/

namespace Sys2Proof.Machine

/-! ### Event flags (R157, R158) -/

/-- EVENT.READ: the flags and the mask reported, and every flag but RESET_SEEN cleared (R157). -/
def State.serveEventRead (s : State) : Reply :=
  (s.setFlags { resetSeen := s.flags.resetSeen }).accept false (.events s.flags s.mask)

/-- EVENT.READ (R157). -/
def execEventRead (s : State) : Host.Outcome State Fault Refusal := .next (s.request (requestLength 0x50) State.serveEventRead)

/-- EVENT.ACK_RESET: RESET_SEEN cleared, the other flags left (R158). -/
def State.serveAckReset (s : State) : Reply := (s.setFlags { s.flags with resetSeen := false }).accept false .empty

/-- EVENT.ACK_RESET (R158). -/
def execEventAckReset (s : State) : Host.Outcome State Fault Refusal := .next (s.request (requestLength 0x51) State.serveAckReset)

/-! ### The part-wide configuration (R159) -/

/-- The configuration with the event flags (R159). -/
def State.partReport (s : State) : PartReport :=
  { mask := s.mask, frameRate := s.frameRate, debounce := s.debounce, defaultRoute := s.defaultRoute, flags := s.flags }

/-- A code or mask that a PART.CONFIG names is not one of those defined (R159 step 2, R163); the delivery fields are checked by
`RawDelivery.apply`. -/
def partCodesBad (fields : Nat) (v : PartSettings) : Bool :=
  (fields.testBit 0 && decide (1024 ≤ v.mask)) || (fields.testBit 1 && (frameRateOf v.frameRate).isNone)
    || (fields.testBit 3 && (yesNoOf v.routeEnabled).isNone)

/-- A setting of a PART.CONFIG was stored at its limit (R159). -/
def partClamps (fields : Nat) (v : PartSettings) : Bool :=
  (fields.testBit 2 && outside 1 15 v.debounce) || v.delivery.clamped fields 4

/-- The mask, debounce and default route after a PART.CONFIG, given the delivery fields (R159). -/
def State.configureLink (s : State) (fields : Nat) (v : PartSettings) (d : Delivery) : State :=
  { s with
    mask := pick (fields.testBit 0) (EventSet.ofNat v.mask) s.mask
    debounce := pick (fields.testBit 2) (clampTo 1 15 v.debounce) s.debounce
    defaultRoute := { enabled := pick (fields.testBit 3) (decide (v.routeEnabled = 1)) s.defaultRoute.enabled, delivery := d } }

/-- The frame rate after a PART.CONFIG, with its effect on the time base (R67, R159). -/
def State.configureRate (s : State) (fields : Nat) (v : PartSettings) : State :=
  if fields.testBit 1 then s.setFrameRate ((frameRateOf v.frameRate).getD s.frameRate) else s

/-- PART.CONFIG: fields in the order event mask, frame rate, panel debounce, and the default route's enabled, channel, preroll,
mode, dwell, answer timeout, guard and tolerance (R110, R159). -/
def State.servePartConfig (s : State) (fields : Nat) (v : PartSettings) : Reply :=
  if badFieldSet 11 fields || partCodesBad fields v then s.refuse .range
  else
    s.ranged (v.delivery.apply fields 4 s.defaultRoute.delivery) (fun d =>
      let s1 := (s.configureLink fields v d).configureRate fields v
      s1.accept (partClamps fields v) (.part s1.partReport))

/-- PART.CONFIG (R159). -/
def execPartConfig (fields : Nat) (v : PartSettings) (s : State) : Host.Outcome State Fault Refusal :=
  .next (s.request (requestLength 0x52) (fun s => s.servePartConfig fields v))

/-- PART.READ (R159). -/
def State.servePartRead (s : State) : Reply := s.accept false (.part s.partReport)

/-- PART.READ (R159). -/
def execPartRead (s : State) : Host.Outcome State Fault Refusal := .next (s.request (requestLength 0x53) State.servePartRead)

/-! ### Part reset (R160, R161) -/

/-- Every block at its values at part reset; the commands waiting outside the part stay. -/
def State.partReset (s : State) : State := { State.reset with pending := s.pending }

/-- The part held in reset: every block at its values at part reset, but RESET_SEEN, which the end of the reset sets (R160).
DEDUCED (notes/assumptions/12.md) in when the registers take those values. -/
def State.holdReset (s : State) : State := { s.partReset with held := true, flags := {} }

/-- PART.RESET: its OK answer is formed, and a part reset made that keeps it (R161). The bytes of the transaction are those shifted
out in it. -/
def State.servePartReset (s : State) : Reply :=
  ({ s.partReset with sdoStatus := s.sdoStatus, sdo := s.sdo } : State).accept false .empty

/-- PART.RESET (R161). -/
def execPartReset (s : State) : Host.Outcome State Fault Refusal := .next (s.request (requestLength 0x54) State.servePartReset)

/-- Power-on holds the part in reset (R160). -/
def execPowerOn (s : State) : Host.Outcome State Fault Refusal := .next s.holdReset

/-- A low level on RST# holds the part in reset (R160). -/
def execRstAssert (s : State) : Host.Outcome State Fault Refusal := .next s.holdReset

/-- The end of a part reset leaves every block at its reset values, with RESET_SEEN set (R160). -/
def execRstRelease (s : State) : Host.Outcome State Fault Refusal := .next (if s.held then s.partReset else s)

/-! ### Read transactions (R153) -/

/-- The bytes that a read shifts out after the summary status while the buffer is READY; fill bytes otherwise (R153). -/
def State.responseBytes (s : State) : List Byte :=
  match s.buffer with
  | .ready a => a.bytes
  | _ => []

/-- The first `n` bytes of a response with fill bytes after its end (R153). -/
def filled (n : Nat) (l : List Byte) : List Byte := l.take n ++ List.replicate (n - l.length) fill

/-- A READY response is consumed (R153). -/
def State.consume (s : State) : State :=
  match s.buffer with
  | .ready _ => { s with buffer := .empty }
  | _ => s

/-- A read transaction: the summary status is formed at the fall of CS# and shifted out, and then the response with fill bytes
after its end; it is consumed when the whole of it has been clocked out. A transaction that ends before a whole byte changes
nothing, and the port takes none while the part is held in reset (R150, R153, R160). -/
def State.readOut (s : State) : Clocked → State
  | .upTo 0 => s
  | .upTo (n + 1) =>
    let s1 := s.shiftOut (filled n s.responseBytes)
    if s.responseBytes.length ≤ n then s1.consume else s1
  | .whole extra => (s.shiftOut (s.responseBytes ++ List.replicate extra fill)).consume

/-- READ_TRANSACTION (R150, R153). -/
def execReadTransaction (clocked : Clocked) (s : State) : Host.Outcome State Fault Refusal :=
  .next (if s.held then s else s.readOut clocked)

end Sys2Proof.Machine
end

