-- ==== Sys2Proof/Machine/PresenterRequests.lean ====
section
/-! DEFINITION. The presenter requests: PRESENTER.CONFIG, SEED and READ (R87 to R89). -/

namespace Sys2Proof.Machine

/-- The slow shift after a PRESENTER.CONFIG. -/
def Presenter.slowAfter (x : Presenter) (fields : Nat) (v : PresenterSettings) : Nat :=
  pick (fields.testBit 2) (clampTo 1 7 v.slowShift) x.slowShift

/-- The fast shift given by, or kept through, a PRESENTER.CONFIG, before it is clamped to the slow shift. -/
def Presenter.fastGiven (x : Presenter) (fields : Nat) (v : PresenterSettings) : Nat :=
  pick (fields.testBit 3) v.fastShift x.fastShift

/-- A lit or dark count after a PRESENTER.CONFIG (R79, R87). -/
def countAfter (fields n given held : Nat) : Nat := pick (fields.testBit n) (clampTo 0 255 given) held

/-- The record after a PRESENTER.CONFIG: fields in the order enabled, learn, slow shift, fast shift, fast bound, halt band,
minimum words, wrap threshold, and the lit and dark counts of STANDBY, ON_AIR and WRAP (R87). R87 names the counts without saying how they
take bits of the field set: that each has a bit of its own, 8 to 13, the lit count and then the dark count of each pattern in turn, is a
DESIGN CHOICE (notes/assumptions/8.md). -/
def Presenter.configured (x : Presenter) (fields : Nat) (v : PresenterSettings) : Presenter :=
  { x with
    enabled := pick (fields.testBit 0) (v.flags.testBit 0) x.enabled
    learn := pick (fields.testBit 1) (v.flags.testBit 1) x.learn
    slowShift := x.slowAfter fields v
    fastShift := min (x.fastGiven fields v) (x.slowAfter fields v)
    fastBound := pick (fields.testBit 4) (clampTo 0 16383 v.fastBound) x.fastBound
    haltBand := pick (fields.testBit 5) (clampTo 0 16383 v.haltBand) x.haltBand
    minWords := pick (fields.testBit 6) (clampTo 1 4095 v.minWords) x.minWords
    wrap := pick (fields.testBit 7) (clampTo 0 65535 v.wrap) x.wrap
    standby := ⟨countAfter fields 8 v.standbyLit x.standby.lit, countAfter fields 9 v.standbyDark x.standby.dark⟩
    onAir := ⟨countAfter fields 10 v.onAirLit x.onAir.lit, countAfter fields 11 v.onAirDark x.onAir.dark⟩
    wrapping := ⟨countAfter fields 12 v.wrapLit x.wrapping.lit, countAfter fields 13 v.wrapDark x.wrapping.dark⟩ }

/-- A setting of a PRESENTER.CONFIG was stored at its limit (R87). -/
def Presenter.clamps (x : Presenter) (fields : Nat) (v : PresenterSettings) : Bool :=
  (fields.testBit 2 && outside 1 7 v.slowShift) || decide (x.slowAfter fields v < x.fastGiven fields v)
    || (fields.testBit 4 && outside 0 16383 v.fastBound) || (fields.testBit 5 && outside 0 16383 v.haltBand)
    || (fields.testBit 6 && outside 1 4095 v.minWords) || (fields.testBit 7 && outside 0 65535 v.wrap)
    || (fields.testBit 8 && outside 0 255 v.standbyLit) || (fields.testBit 9 && outside 0 255 v.standbyDark)
    || (fields.testBit 10 && outside 0 255 v.onAirLit) || (fields.testBit 11 && outside 0 255 v.onAirDark)
    || (fields.testBit 12 && outside 0 255 v.wrapLit) || (fields.testBit 13 && outside 0 255 v.wrapDark)

/-- The flags byte of a PRESENTER.CONFIG has enabled and learn and no other bit, and a bit that is not defined refuses the request
whatever the field set names (R163, *Undefined bits*). -/
def presenterFlagsBad (v : PresenterSettings) : Bool := decide (4 ≤ v.flags)

/-- The pattern-changed marker is set when the pattern of the shown state takes a different count (R138). -/
def Light.marked (l : Light) (before after : Presenter) : Light :=
  { l with changed := l.changed || decide (before.pattern l.shown ≠ after.pattern l.shown) }

/-- A PRESENTER.CONFIG carried out: the record, and the marker of the position's light (R87, R138). -/
def State.configurePresenter (s : State) (p : Pos) (x : Presenter) : State :=
  (s.setPresenter p x).setLight p ((s.light p).marked (s.presenter p) x)

/-- PRESENTER.CONFIG (R87). -/
def State.servePresenterConfig (s : State) (position fields : Nat) (v : PresenterSettings) : Reply :=
  s.ranged (idOf 8 position) (fun p =>
    if badFieldSet 14 fields || presenterFlagsBad v then s.refuse .range
    else
      let x := (s.presenter p).configured fields v
      (s.configurePresenter p x).accept ((s.presenter p).clamps fields v) (.presenterConfig x))

/-- PRESENTER.CONFIG (R87). -/
def execPresenterConfig (position fields : Nat) (v : PresenterSettings) (s : State) : Host.Outcome State Fault Refusal :=
  .next (s.request (requestLength 0x30) (fun s => s.servePresenterConfig position fields v))

/-- PRESENTER.SEED (R88). -/
def State.servePresenterSeed (s : State) (position rate : Nat) : Reply :=
  s.ranged (idOf 8 position) (fun p =>
    let r := clampTo minRate maxRate rate
    (s.setPresenter p { s.presenter p with rate := r, outliers := 0 }).accept (outside minRate maxRate rate) (.seeded r 0))

/-- PRESENTER.SEED (R88). -/
def execPresenterSeed (position rate : Nat) (s : State) : Host.Outcome State Fault Refusal :=
  .next (s.request (requestLength 0x31) (fun s => s.servePresenterSeed position rate))

/-- PRESENTER.READ, with the estimate for 100 words (R89). -/
def State.servePresenterRead (s : State) (position : Nat) : Reply :=
  s.ranged (idOf 8 position) (fun p =>
    s.accept false (.presenterRead (s.presenter p) (estimateOf 100 (s.presenter p).rate)))

/-- PRESENTER.READ (R89). -/
def execPresenterRead (position : Nat) (s : State) : Host.Outcome State Fault Refusal :=
  .next (s.request (requestLength 0x32) (fun s => s.servePresenterRead position))

end Sys2Proof.Machine
end

