-- ==== Sys2Proof/Machine/RouteRequests.lean ====
section
/-! DEFINITION. The route table requests: ROUTE.WRITE, READ and TEST (R111 to R115). -/

namespace Sys2Proof.Machine

/-- The enabled code that a ROUTE.WRITE names is neither yes nor no, or one of its two subset bytes has a bit that is not defined, which
refuses the request whatever the field set names (R112 step 5, R163); the delivery fields are checked by `RawDelivery.apply`. -/
def routeCodesBad (fields : Nat) (v : RouteSettings) : Bool :=
  (fields.testBit 0 && (yesNoOf v.enabled).isNone) || decide (4 ≤ v.tracks) || decide (64 ≤ v.actions)

/-- The entry after a ROUTE.WRITE, given its delivery fields: the selection fields enabled, base, mask, tracks, actions (R107,
R112). -/
def Route.written (x : Route) (fields : Nat) (v : RouteSettings) (d : Delivery) : Route :=
  { enabled := pick (fields.testBit 0) (decide (v.enabled = 1)) x.enabled
    base := pick (fields.testBit 1) (BitVec.ofNat 16 v.base) x.base
    mask := pick (fields.testBit 2) (BitVec.ofNat 16 v.mask) x.mask
    tracks := pick (fields.testBit 3) (BitVec.ofNat 2 v.tracks) x.tracks
    actions := pick (fields.testBit 4) (BitVec.ofNat 6 v.actions) x.actions
    delivery := d }

/-- A ROUTE.WRITE carried out: a write of entry 0 that names the mask clears GLOBAL (R111, R112). -/
def State.writeRoute (s : State) (n : RouteNo) (fields : Nat) (x : Route) : State :=
  { s.setRoute n x with isGlobal := if n = 0 ∧ fields.testBit 2 = true then false else s.isGlobal }

/-- The GLOBAL flag as it is reported for an entry: clear for entries 1 to 15 (R114). R112 gives the flag in ROUTE.WRITE's answer for
entry 0 alone: that the answer for entries 1 to 15 carries it too, reported clear as in ROUTE.READ's, is a DESIGN CHOICE
(notes/assumptions/11.md). -/
def State.reportedGlobal (s : State) (n : RouteNo) : Bool := decide (n = 0) && s.isGlobal

/-- ROUTE.WRITE: the entry, then the field set, and then the channel, the mode and the other codes (R112). Its answer has one form for
every entry (DESIGN CHOICE: notes/assumptions/11.md, see `State.reportedGlobal`). -/
def State.serveRouteWrite (s : State) (entry fields : Nat) (v : RouteSettings) : Reply :=
  s.ranged (idOf 16 entry) (fun n =>
    if badFieldSet 12 fields || routeCodesBad fields v then s.refuse .range
    else
      s.ranged (v.delivery.apply fields 5 (s.route n).delivery) (fun d =>
        let x := (s.route n).written fields v d
        let s1 := s.writeRoute n fields x
        s1.accept (v.delivery.clamped fields 5) (.route x (s1.reportedGlobal n))))

/-- ROUTE.WRITE (R112). -/
def execRouteWrite (entry fields : Nat) (v : RouteSettings) (s : State) : Host.Outcome State Fault Refusal :=
  .next (s.request (requestLength 0x38) (fun s => s.serveRouteWrite entry fields v))

/-- ROUTE.READ: an entry, or DEFAULT by its code 10h (R114). -/
def State.serveRouteRead (s : State) (entry : Nat) : Reply :=
  if entry = 16 then s.accept false (.defaultRoute s.defaultRoute)
  else s.ranged (idOf 16 entry) (fun n => s.accept false (.route (s.route n) (s.reportedGlobal n)))

/-- ROUTE.READ (R114). -/
def execRouteRead (entry : Nat) (s : State) : Host.Outcome State Fault Refusal :=
  .next (s.request (requestLength 0x39) (fun s => s.serveRouteRead entry))

/-- ROUTE.TEST: the resolution a cue of that target, action and track would meet, and the lowest-numbered entry passed over
(R115). -/
def State.serveRouteTest (s : State) (target action track : Nat) : Reply :=
  s.ranged (actionOf action) (fun a =>
    s.ranged (trackOf track) (fun t =>
      let code : Word16 := BitVec.ofNat 16 target
      s.accept false (.routeTest (s.resolve code a t) (firstPassedOver code a t s.routes.entries))))

/-- ROUTE.TEST (R115). -/
def execRouteTest (target action track : Nat) (s : State) : Host.Outcome State Fault Refusal :=
  .next (s.request (requestLength 0x3A) (fun s => s.serveRouteTest target action track))

end Sys2Proof.Machine
end

