-- ==== Sys2Proof/Machine/TimeRequests.lean ====
section
/-! DEFINITION. The time base requests: TIME.SET and TIME.READ (R68, R69). -/

namespace Sys2Proof.Machine

/-- TIME.SET: the SFC takes the value, and no frame event is made (R68). -/
def State.serveTimeSet (s : State) (value : Nat) : Reply :=
  ({ s with sfc := BitVec.ofNat 32 value } : State).accept false (.timeSet s.sfc (BitVec.ofNat 32 value))

/-- TIME.SET (R68). -/
def execTimeSet (value : Nat) (s : State) : Host.Outcome State Fault Refusal :=
  .next (s.request (requestLength 0x28) (fun s => s.serveTimeSet value))

/-- TIME.READ: the SFC, the reference state, the frame-rate setting and, in FLYWHEEL, the qualifying count (R69). -/
def State.serveTimeRead (s : State) : Reply :=
  s.accept false (.timeRead s.sfc s.reference s.frameRate
    (match s.reference with
     | .flywheel => some s.qualifying
     | .locked => none))

/-- TIME.READ (R69). -/
def execTimeRead (s : State) : Host.Outcome State Fault Refusal := .next (s.request (requestLength 0x29) State.serveTimeRead)

end Sys2Proof.Machine
end

