-- ==== Sys2Proof/Machine/TrackRequests.lean ====
section
/-! DEFINITION. The track requests: TRACK.TAKE, SKIP, HOLD, CONFIG, READ and RESET (R41 to R43, R50, R54, R55). -/

namespace Sys2Proof.Machine

/-- The answer of TRACK.TAKE: the item now on air and its start, the item that left air and its actual, and the READY item
(R50). -/
def State.takeReport (s : State) (before : State) (t : Track) : TakeReport :=
  let air := (s.track t).onAir
  let done := (before.track t).onAir
  { onAir := air, start := air.bind (fun i => (s.slot i).start), done := done
    actual := done.map (fun o => actualOf (before.startIn t) ((before.slot o).start.getD (before.startIn t)))
    ready := (s.track t).ready }

/-- TRACK.TAKE: TOO_SOON in lockout, NO_NEXT with no READY item, or else an ordinary take (R50). -/
def State.serveTake (s : State) (track : Nat) : Reply :=
  s.ranged (trackOf track) (fun t =>
    if 0 < (s.track t).lockoutCount then s.refuse .tooSoon
    else
      match (s.track t).ready with
      | none => s.refuse .noNext
      | some r => (s.ordinaryTake t r).accept false (.taken ((s.ordinaryTake t r).takeReport s t)))

/-- TRACK.TAKE (R50). -/
def execTrackTake (track : Nat) (s : State) : Host.Outcome State Fault Refusal :=
  .next (s.request (requestLength 0x20) (fun s => s.serveTake track))

/-- TRACK.SKIP: NO_NEXT with no READY item, or else a skip (R54). -/
def State.serveSkip (s : State) (track : Nat) : Reply :=
  s.ranged (trackOf track) (fun t =>
    match (s.track t).ready with
    | none => s.refuse .noNext
    | some r => (s.skip t r).accept false (.skipped r ((s.skip t r).track t).ready))

/-- TRACK.SKIP (R54). -/
def execTrackSkip (track : Nat) (s : State) : Host.Outcome State Fault Refusal :=
  .next (s.request (requestLength 0x21) (fun s => s.serveSkip track))

/-- TRACK.HOLD (R42); a value that is neither yes nor no is refused (R163). -/
def State.serveHold (s : State) (track value : Nat) : Reply :=
  s.ranged (trackOf track) (fun t =>
    s.ranged (yesNoOf value) (fun v =>
      let s1 := s.setTrack t { s.track t with hostHold := v }
      s1.accept false (.hold v (s1.panelHold t) (s1.effectiveHold t))))

/-- TRACK.HOLD (R42). -/
def execTrackHold (track value : Nat) (s : State) : Host.Outcome State Fault Refusal :=
  .next (s.request (requestLength 0x22) (fun s => s.serveHold track value))

/-- The band in force after a TRACK.CONFIG (R41). -/
def TrackRec.bandAfter (x : TrackRec) (fields : Nat) (v : TrackSettings) : Nat :=
  pick (fields.testBit 2) (clampTo 0 65535 v.band) x.band

/-- The hysteresis given by, or kept through, a TRACK.CONFIG, before it is clamped to the band. -/
def TrackRec.hysteresisGiven (x : TrackRec) (fields : Nat) (v : TrackSettings) : Nat :=
  pick (fields.testBit 3) v.hysteresis x.hysteresis

/-- The lockout after a TRACK.CONFIG. -/
def TrackRec.lockoutAfter (x : TrackRec) (fields : Nat) (v : TrackSettings) : Nat :=
  pick (fields.testBit 1) (clampTo 0 255 v.lockout) x.lockout

/-- The configuration fields of a record (R40). -/
def TrackRec.configuration (x : TrackRec) : TrackConfiguration :=
  { takeDelay := x.takeDelay, lockout := x.lockout, band := x.band, hysteresis := x.hysteresis, hardOut := x.hardOut
    hostHold := x.hostHold }

/-- The record after a TRACK.CONFIG: fields in the order take delay, lockout, band, hysteresis, hard-out; a lockout count above
the new lockout is lowered to it (R41). -/
def TrackRec.configured (x : TrackRec) (fields : Nat) (v : TrackSettings) : TrackRec :=
  { x with
    takeDelay := pick (fields.testBit 0) (clampTo 0 15 v.takeDelay) x.takeDelay
    lockout := x.lockoutAfter fields v
    band := x.bandAfter fields v
    hysteresis := min (x.hysteresisGiven fields v) (x.bandAfter fields v)
    hardOut := pick (fields.testBit 4) v.hardOutOf x.hardOut
    lockoutCount := if fields.testBit 1 then min x.lockoutCount (x.lockoutAfter fields v) else x.lockoutCount }

/-- A setting of a TRACK.CONFIG was stored at its limit; the hysteresis is clamped to the band in force after the request
(R41). -/
def TrackRec.clamps (x : TrackRec) (fields : Nat) (v : TrackSettings) : Bool :=
  (fields.testBit 0 && outside 0 15 v.takeDelay) || (fields.testBit 1 && outside 0 255 v.lockout)
    || (fields.testBit 2 && outside 0 65535 v.band) || decide (x.bandAfter fields v < x.hysteresisGiven fields v)

/-- A hard-out given where none was present is evaluated as newly set: the status stands at NONE, and the next evaluation moves it
by the NONE row, whether or not one fell while the hard-out was absent (R41, R77). No event is raised (R41). DEDUCED
(notes/assumptions/10.md). -/
def State.newlySet (s : State) (t : Track) (x : TrackRec) : State :=
  if (s.track t).hardOut.isNone && x.hardOut.isSome then s.setStatus t .none else s

/-- TRACK.CONFIG: the configured record, with a newly given hard-out, and the configuration as the answer (R41). -/
def State.serveTrackConfig (s : State) (track fields : Nat) (v : TrackSettings) : Reply :=
  s.ranged (trackOf track) (fun t =>
    if badFieldSet 5 fields || v.presenceBad then s.refuse .range
    else
      let x := (s.track t).configured fields v
      ((s.newlySet t x).setTrack t x).accept ((s.track t).clamps fields v) (.trackConfig x.configuration))

/-- TRACK.CONFIG (R41). -/
def execTrackConfig (track fields : Nat) (v : TrackSettings) (s : State) : Host.Outcome State Fault Refusal :=
  .next (s.request (requestLength 0x23) (fun s => s.serveTrackConfig track fields v))

/-- The answer of TRACK.READ (R43). DEDUCED (notes/assumptions/11.md). -/
def State.trackReport (s : State) (t : Track) : TrackReport :=
  { record := s.track t, panelHold := s.panelHold t, effectiveHold := s.effectiveHold t, auto := s.autoCondition t
    autoFrame := s.autoFrame t, status := s.statusOf t, overUnder := s.overUnder t, armed := s.armedQueue t }

/-- TRACK.READ (R43). -/
def State.serveTrackRead (s : State) (track : Nat) : Reply :=
  s.ranged (trackOf track) (fun t => s.accept false (.trackRead (s.trackReport t)))

/-- TRACK.READ (R43). -/
def execTrackRead (track : Nat) (s : State) : Host.Outcome State Fault Refusal :=
  .next (s.request (requestLength 0x24) (fun s => s.serveTrackRead track))

/-- TRACK.RESET (R55). -/
def State.serveTrackReset (s : State) (track : Nat) : Reply :=
  s.ranged (trackOf track) (fun t => (s.resetTrack t).accept false (.trackReset ((s.resetTrack t).track t).ready))

/-- TRACK.RESET (R55). -/
def execTrackReset (track : Nat) (s : State) : Host.Outcome State Fault Refusal :=
  .next (s.request (requestLength 0x25) (fun s => s.serveTrackReset track))

end Sys2Proof.Machine
end

