-- ==== Sys2Proof/Machine/RequestBytes.lean ====
section
/-! DEFINITION. The bytes of requests: the command that a frame's bytes spell, and the write transaction that carries any bytes (R151,
R163, section 11.2). -/

namespace Sys2Proof.Machine

/-! ### The item bodies -/

/-- The number that `width` bytes of a body hold, from a place on (R163). -/
def fieldAt (body : List Byte) (place width : Nat) : Nat := ofBytes ((body.drop place).take width)

/-- A cue entry: 7 bytes (section 11.2). -/
def cueAt (body : List Byte) (place : Nat) : RawCue :=
  { phaseAction := fieldAt body place 1, offset := fieldAt body (place + 1) 2, target := fieldAt body (place + 3) 2
    param := fieldAt body (place + 5) 2 }

/-- The cue entries of a body, behind a cue count byte (section 11.2). -/
def cuesAt (body : List Byte) (place : Nat) : List RawCue :=
  (List.range (fieldAt body place 1)).map (fun n => cueAt body (place + 1 + 7 * n))

/-- The item field block: 20 bytes (section 11.2). -/
def blockAt (body : List Byte) (place : Nat) : RawBlock :=
  { key := fieldAt body place 4, kind := fieldAt body (place + 4) 1, flags := fieldAt body (place + 5) 1
    presenter := fieldAt body (place + 6) 1, words := fieldAt body (place + 7) 2, planned := fieldAt body (place + 9) 3
    hardIn := fieldAt body (place + 12) 4, script := fieldAt body (place + 16) 4 }

/-- The direct request that carries an edit. -/
def editRequest : Edit → Instr
  | .create track anchor block cues => .itemCreate track anchor block cues
  | .update id revision fields block => .itemUpdate id revision fields block
  | .move id revision anchor => .itemMove id revision anchor
  | .retire id revision => .itemRetire id revision
  | .restore id revision => .itemRestore id revision
  | .cues id revision cues => .itemCues id revision cues

/-- A write request by its group field, the body's first byte: FFh direct, any other value staged (section 11.2). -/
def editRequestOf (body : List Byte) (e : Edit) : Instr :=
  if fieldAt body 0 1 = 0xFF then editRequest e else .stagedEdit (fieldAt body 0 1) e

/-! ### The settings whose place no table gives -/

/-- Numbered widths cut off the front of a body, one after another. -/
def cutFields : List (Nat × Nat) → List Byte → List (Nat × Nat)
  | [], _ => []
  | (n, w) :: l, body => (n, ofBytes (body.take w)) :: cutFields l (body.drop w)

/-- The values of a request's fields, given the width of each: the fields stand in the frame's own order (DESIGN CHOICE:
notes/assumptions/1.md). -/
def settingsOf (l : Layout) (widths : List Nat) (body : List Byte) (n : Nat) : Nat :=
  let cut := cutFields (ranked l ((List.range widths.length).zip widths)) body
  ((cut.find? (fun x => decide (x.1 = n))).map (·.2)).getD 0

/-! The widths below are the only ones that fill the sizes of section 11.2, with every code and identifier one byte, every field at least as
wide as its range, and those wider than it that R163 (*Widths*) has wider, as far as the size has room (DEDUCED:
notes/assumptions/1.md). -/

/-- TRACK.CONFIG: track, field set, take delay, lockout, band, hysteresis, hard-out and presence byte, 13 bytes (R41). -/
def trackWidths : List Nat := [1, 1, 1, 1, 2, 2, 4, 1]

/-- PRESENTER.CONFIG: position, field set, flags byte, slow and fast shift, fast bound, halt band, minimum words, wrap threshold and the
six counts, 20 bytes (R87). Two bytes for enabled and learn would make 21: they are flag bits of one byte. -/
def presenterWidths : List Nat := [1, 2, 1, 1, 1, 2, 2, 2, 2, 1, 1, 1, 1, 1, 1]

/-- The delivery fields: channel, preroll, mode, dwell, answer timeout, guard and tolerance (R107). -/
def deliveryWidths : List Nat := [1, 1, 1, 2, 2, 1, 2]

/-- ROUTE.WRITE: entry, field set, enabled, base, mask, tracks, actions and the delivery fields, 20 bytes (R112). -/
def routeWidths : List Nat := [1, 2, 1, 2, 2, 1, 1] ++ deliveryWidths

/-- CHANNEL.CONFIG: channel, field set, kind, fault mode, poll interval, silent limit and retry interval, 10 bytes (R134). -/
def channelWidths : List Nat := [1, 1, 1, 1, 2, 2, 2]

/-- PART.CONFIG: field set, mask, frame rate, debounce, enabled and the delivery fields, 17 bytes (R159). -/
def partWidths : List Nat := [2, 2, 1, 1, 1] ++ deliveryWidths

/-- TRACK.CONFIG: the track, the field set, the settings and the presence byte (R41). -/
def trackConfigOf (body : List Byte) : Instr :=
  let v := settingsOf .setTrack trackWidths body
  .trackConfig (v 0) (v 1) ⟨v 2, v 3, v 4, v 5, v 6, v 7⟩

/-- PRESENTER.CONFIG: the position, the field set and the settings (R87). Enabled and learn are flag bits, of section 11.2's two forms of a
yes or no, because the 20 bytes of the body have no room for a byte each (DEDUCED); that they are bits 0 and 1 of the byte is a DESIGN
CHOICE (notes/assumptions/1.md). -/
def presenterConfigOf (body : List Byte) : Instr :=
  let v := settingsOf .setPresenter presenterWidths body
  .presenterConfig (v 0) (v 1) ⟨v 2, v 3, v 4, v 5, v 6, v 7, v 8, v 9, v 10, v 11, v 12, v 13, v 14⟩

/-- ROUTE.WRITE: the entry, the field set and the settings (R112). Enabled is a byte of its own, of section 11.2's two forms of a yes or no
(DESIGN CHOICE: notes/assumptions/1.md). -/
def routeWriteOf (body : List Byte) : Instr :=
  let v := settingsOf .setRoute routeWidths body
  .routeWrite (v 0) (v 1) ⟨v 2, v 3, v 4, v 5, v 6, ⟨v 7, v 8, v 9, v 10, v 11, v 12, v 13⟩⟩

/-- CHANNEL.CONFIG: the channel, the field set and the settings (R134). -/
def channelConfigOf (body : List Byte) : Instr :=
  let v := settingsOf .setChannel channelWidths body
  .channelConfig (v 0) (v 1) ⟨v 2, v 3, v 4, v 5, v 6⟩

/-- PART.CONFIG: the field set and the settings (R159). The default route's enabled is a byte of its own (DESIGN CHOICE:
notes/assumptions/1.md). -/
def partConfigOf (body : List Byte) : Instr :=
  let v := settingsOf .setPart partWidths body
  .partConfig (v 0) ⟨v 1, v 2, v 3, v 4, ⟨v 5, v 6, v 7, v 8, v 9, v 10, v 11⟩⟩

/-! ### The command a frame spells -/

/-- The command that a request code and a body spell (section 11.2). Where a rule gives the fields of a body and section 11.2 its size
alone, the fields stand in the order of the rule, behind the group field of an item write (DEDUCED: notes/assumptions/1.md). -/
def requestOf (code : Nat) (body : List Byte) : Option Instr :=
  match code with
  | 0x01 => some (editRequestOf body (.create (fieldAt body 1 1) (fieldAt body 2 2) (blockAt body 4) (cuesAt body 24)))
  | 0x02 => some (editRequestOf body (.update (fieldAt body 1 2) (fieldAt body 3 2) (fieldAt body 5 2) (blockAt body 7)))
  | 0x03 => some (editRequestOf body (.move (fieldAt body 1 2) (fieldAt body 3 2) (fieldAt body 5 2)))
  | 0x04 => some (editRequestOf body (.retire (fieldAt body 1 2) (fieldAt body 3 2)))
  | 0x05 => some (editRequestOf body (.restore (fieldAt body 1 2) (fieldAt body 3 2)))
  | 0x06 => some (editRequestOf body (.cues (fieldAt body 1 2) (fieldAt body 3 2) (cuesAt body 5)))
  | 0x07 => some (.itemRead (fieldAt body 0 2))
  | 0x08 => some (.itemFind (fieldAt body 0 4))
  | 0x09 => some (.rundownList (fieldAt body 0 1) (fieldAt body 1 2) (fieldAt body 3 1))
  | 0x10 => some (.groupOpen (fieldAt body 0 1) (fieldAt body 1 1))
  | 0x11 => some (.groupLaunch (fieldAt body 0 1) (fieldAt body 1 1))
  | 0x12 => some (.groupDiscard (fieldAt body 0 1))
  | 0x13 => some (.groupRead (fieldAt body 0 1))
  | 0x20 => some (.trackTake (fieldAt body 0 1))
  | 0x21 => some (.trackSkip (fieldAt body 0 1))
  | 0x22 => some (.trackHold (fieldAt body 0 1) (fieldAt body 1 1))
  | 0x23 => some (trackConfigOf body)
  | 0x24 => some (.trackRead (fieldAt body 0 1))
  | 0x25 => some (.trackReset (fieldAt body 0 1))
  | 0x28 => some (.timeSet (fieldAt body 0 4))
  | 0x29 => some .timeRead
  | 0x30 => some (presenterConfigOf body)
  | 0x31 => some (.presenterSeed (fieldAt body 0 1) (fieldAt body 1 2))
  | 0x32 => some (.presenterRead (fieldAt body 0 1))
  | 0x38 => some (routeWriteOf body)
  | 0x39 => some (.routeRead (fieldAt body 0 1))
  | 0x3A => some (.routeTest (fieldAt body 0 2) (fieldAt body 2 1) (fieldAt body 3 1))
  | 0x40 => some (channelConfigOf body)
  | 0x41 => some (.channelClear (fieldAt body 0 1))
  | 0x42 => some (.channelRead (fieldAt body 0 1))
  | 0x50 => some .eventRead
  | 0x51 => some .eventAckReset
  | 0x52 => some (partConfigOf body)
  | 0x53 => some .partRead
  | 0x54 => some .partReset
  | _ => none

/-- The rule of the request that a command carries; no other command carries one, and stands here with UNKNOWN. -/
def State.serve (s : State) : Instr → Reply
  | .itemCreate track anchor block cues => s.direct (.create track anchor block cues)
  | .itemUpdate id revision fields block => s.direct (.update id revision fields block)
  | .itemMove id revision anchor => s.direct (.move id revision anchor)
  | .itemRetire id revision => s.direct (.retire id revision)
  | .itemRestore id revision => s.direct (.restore id revision)
  | .itemCues id revision cues => s.direct (.cues id revision cues)
  | .itemRead id => s.serveItemRead id
  | .itemFind key => s.serveItemFind key
  | .rundownList track start count => s.serveRundownList track start count
  | .stagedEdit group edit => s.serveEdit group edit
  | .groupOpen group track => s.serveGroupOpen group track
  | .groupLaunch group mode => s.serveGroupLaunch group mode
  | .groupDiscard group => s.serveGroupDiscard group
  | .groupRead group => s.serveGroupRead group
  | .trackTake track => s.serveTake track
  | .trackSkip track => s.serveSkip track
  | .trackHold track value => s.serveHold track value
  | .trackConfig track fields settings => s.serveTrackConfig track fields settings
  | .trackRead track => s.serveTrackRead track
  | .trackReset track => s.serveTrackReset track
  | .timeSet value => s.serveTimeSet value
  | .timeRead => s.serveTimeRead
  | .presenterConfig position fields settings => s.servePresenterConfig position fields settings
  | .presenterSeed position rate => s.servePresenterSeed position rate
  | .presenterRead position => s.servePresenterRead position
  | .routeWrite entry fields settings => s.serveRouteWrite entry fields settings
  | .routeRead entry => s.serveRouteRead entry
  | .routeTest target action track => s.serveRouteTest target action track
  | .channelConfig channel fields settings => s.serveChannelConfig channel fields settings
  | .channelClear channel => s.serveChannelClear channel
  | .channelRead channel => s.serveChannelRead channel
  | .eventRead => s.serveEventRead
  | .eventAckReset => s.serveAckReset
  | .partConfig fields settings => s.servePartConfig fields settings
  | .partRead => s.servePartRead
  | .partReset => s.servePartReset
  | _ => s.refuse .unknown

/-- The request that the bytes after a length byte carry: FRAME or UNKNOWN by the first three checks of R151, or else the rule of the
request they spell. -/
def State.serveBytes (s : State) (length : Nat) (bytes : List Byte) (partByte : Bool) : Reply :=
  match framing length bytes partByte, bytes with
  | none, code :: body => s.ranged (requestOf code.toNat body) s.serve
  | some r, _ => s.refuse r
  | none, [] => s.refuse .frame

/-- A write of any bytes. One that fails one of the first three checks of R151 is answered with what the check gives; one that passes
them is the request its bytes spell, as the row of that request has it. A length byte of 0 makes the transaction a read (R150). -/
def execUnknownRequest (length : Nat) (bytes : List Byte) (partByte : Bool) (s : State) : Host.Outcome State Fault Refusal :=
  .next
    (if length = 0 then (if s.held then s else s.readOut (.upTo (bytes.length + 1)))
     else s.request bytes.length (fun s => s.serveBytes length bytes partByte))

end Sys2Proof.Machine
end

