-- ==== Sys2Proof/Machine/Dispatch.lean ====
section
/-! DEFINITION. The commands, each by one direct call of its meaning. -/

namespace Sys2Proof.Machine

def exec (i : Instr) (s : State) : Host.Outcome State Fault Refusal :=
  match i with
  | .itemCreate track anchor block cues => Sys2Proof.Machine.execItemCreate track anchor block cues s
  | .itemUpdate id revision fields block => Sys2Proof.Machine.execItemUpdate id revision fields block s
  | .itemMove id revision anchor => Sys2Proof.Machine.execItemMove id revision anchor s
  | .itemRetire id revision => Sys2Proof.Machine.execItemRetire id revision s
  | .itemRestore id revision => Sys2Proof.Machine.execItemRestore id revision s
  | .itemCues id revision cues => Sys2Proof.Machine.execItemCues id revision cues s
  | .itemRead id => Sys2Proof.Machine.execItemRead id s
  | .itemFind key => Sys2Proof.Machine.execItemFind key s
  | .rundownList track start count => Sys2Proof.Machine.execRundownList track start count s
  | .stagedEdit group edit => Sys2Proof.Machine.execStagedEdit group edit s
  | .groupOpen group track => Sys2Proof.Machine.execGroupOpen group track s
  | .groupLaunch group mode => Sys2Proof.Machine.execGroupLaunch group mode s
  | .groupDiscard group => Sys2Proof.Machine.execGroupDiscard group s
  | .groupRead group => Sys2Proof.Machine.execGroupRead group s
  | .trackTake track => Sys2Proof.Machine.execTrackTake track s
  | .trackSkip track => Sys2Proof.Machine.execTrackSkip track s
  | .trackHold track value => Sys2Proof.Machine.execTrackHold track value s
  | .trackConfig track fields settings => Sys2Proof.Machine.execTrackConfig track fields settings s
  | .trackRead track => Sys2Proof.Machine.execTrackRead track s
  | .trackReset track => Sys2Proof.Machine.execTrackReset track s
  | .timeSet value => Sys2Proof.Machine.execTimeSet value s
  | .timeRead => Sys2Proof.Machine.execTimeRead s
  | .presenterConfig position fields settings => Sys2Proof.Machine.execPresenterConfig position fields settings s
  | .presenterSeed position rate => Sys2Proof.Machine.execPresenterSeed position rate s
  | .presenterRead position => Sys2Proof.Machine.execPresenterRead position s
  | .routeWrite entry fields settings => Sys2Proof.Machine.execRouteWrite entry fields settings s
  | .routeRead entry => Sys2Proof.Machine.execRouteRead entry s
  | .routeTest target action track => Sys2Proof.Machine.execRouteTest target action track s
  | .channelConfig channel fields settings => Sys2Proof.Machine.execChannelConfig channel fields settings s
  | .channelClear channel => Sys2Proof.Machine.execChannelClear channel s
  | .channelRead channel => Sys2Proof.Machine.execChannelRead channel s
  | .eventRead => Sys2Proof.Machine.execEventRead s
  | .eventAckReset => Sys2Proof.Machine.execEventAckReset s
  | .partConfig fields settings => Sys2Proof.Machine.execPartConfig fields settings s
  | .partRead => Sys2Proof.Machine.execPartRead s
  | .partReset => Sys2Proof.Machine.execPartReset s
  | .unknownRequest length bytes partByte => Sys2Proof.Machine.execUnknownRequest length bytes partByte s
  | .readTransaction clocked => Sys2Proof.Machine.execReadTransaction clocked s
  | .powerOn => Sys2Proof.Machine.execPowerOn s
  | .rstAssert => Sys2Proof.Machine.execRstAssert s
  | .rstRelease => Sys2Proof.Machine.execRstRelease s
  | .refPulse elapsed frame => Sys2Proof.Machine.execRefPulse elapsed frame s
  | .flywheelTick frame => Sys2Proof.Machine.execFlywheelTick frame s
  | .referenceLoss frame => Sys2Proof.Machine.execReferenceLoss frame s
  | .panelDebounceExpiry input => Sys2Proof.Machine.execPanelDebounceExpiry input s
  | .lockoutExpiry track => Sys2Proof.Machine.execLockoutExpiry track s
  | .autoTake track => Sys2Proof.Machine.execAutoTake track s
  | .hardInTake track => Sys2Proof.Machine.execHardInTake track s
  | .presenterCompletion => Sys2Proof.Machine.execPresenterCompletion s
  | .cueOffer => Sys2Proof.Machine.execCueOffer s
  | .cueCompletion => Sys2Proof.Machine.execCueCompletion s
  | .cueAgedLate channel => Sys2Proof.Machine.execCueAgedLate channel s
  | .dwellExpiry channel => Sys2Proof.Machine.execDwellExpiry channel s
  | .answerTimeout channel => Sys2Proof.Machine.execAnswerTimeout channel s
  | .guardExpiry channel => Sys2Proof.Machine.execGuardExpiry channel s
  | .recoveryExpiry channel => Sys2Proof.Machine.execRecoveryExpiry channel s
  | .silentFault channel => Sys2Proof.Machine.execSilentFault channel s
  | .poll channel => Sys2Proof.Machine.execPoll channel s
  | .accept channel tag => Sys2Proof.Machine.execAccept channel tag s
  | .refuse channel tag => Sys2Proof.Machine.execRefuse channel tag s
  | .status channel value => Sys2Proof.Machine.execStatus channel value s
  | .deviceFrameOther channel type payload => Sys2Proof.Machine.execDeviceFrameOther channel type payload s
  | .endReport script track => Sys2Proof.Machine.execEndReport script track s
  | .linkTransmitDone link => Sys2Proof.Machine.execLinkTransmitDone link s
  | .discardedLinkFrame link bytes => Sys2Proof.Machine.execDiscardedLinkFrame link bytes s

end Sys2Proof.Machine
end

