-- ==== Sys2Proof/WellFormed.lean ====
section
/-! DEFINITION. Which commands can reach the part: operands that fit the bytes their frames carry (section 11.2), and events
that are what their row says. The part itself takes any operand: a well-formed command may still be refused or clamped. -/

namespace Sys2Proof

open Sys2Proof.Machine

/-- A number fits in so many bytes. -/
def fits (bytes v : Nat) : Bool := decide (v < 256 ^ bytes)

/-- A cue entry of a request: 7 bytes (section 11.2). -/
def RawCue.wellFormed (c : RawCue) : Bool := fits 1 c.phaseAction && fits 2 c.offset && fits 2 c.target && fits 2 c.param

/-- An item field block: 20 bytes (section 11.2). -/
def RawBlock.wellFormed (b : RawBlock) : Bool :=
  fits 4 b.key && fits 1 b.kind && fits 1 b.flags && fits 1 b.presenter && fits 2 b.words && fits 3 b.planned && fits 4 b.hardIn
    && fits 4 b.script

/-- A cue list in a request whose other body bytes number `fixed`: the length byte holds the code and the body. -/
def cuesWellFormed (fixed : Nat) (l : List RawCue) : Bool := l.all RawCue.wellFormed && decide (1 + fixed + 7 * l.length ≤ 255)

/-- An item write request, by its byte layout (section 11.2). -/
def Edit.wellFormed : Edit → Bool
  | .create track anchor block list => fits 1 track && fits 2 anchor && block.wellFormed && cuesWellFormed 25 list
  | .update id revision fields block => fits 2 id && fits 2 revision && fits 2 fields && block.wellFormed
  | .move id revision anchor => fits 2 id && fits 2 revision && fits 2 anchor
  | .retire id revision => fits 2 id && fits 2 revision
  | .restore id revision => fits 2 id && fits 2 revision
  | .cues id revision list => fits 2 id && fits 2 revision && cuesWellFormed 6 list

/-- Delivery fields, by their widths in a request (DEDUCED: notes/assumptions/1.md, as are those of the settings below). -/
def RawDelivery.wellFormed (d : RawDelivery) : Bool :=
  fits 1 d.channel && fits 1 d.preroll && fits 1 d.mode && fits 2 d.dwell && fits 2 d.answerTimeout && fits 1 d.guard
    && fits 2 d.tolerance

/-- The settings of TRACK.CONFIG, with a frame value and a presence byte. -/
def TrackSettings.wellFormed (v : TrackSettings) : Bool :=
  fits 1 v.takeDelay && fits 1 v.lockout && fits 2 v.band && fits 2 v.hysteresis && fits 4 v.hardOut && fits 1 v.presence

/-- The settings of PRESENTER.CONFIG, with a flags byte. -/
def PresenterSettings.wellFormed (v : PresenterSettings) : Bool :=
  fits 1 v.flags && fits 1 v.slowShift && fits 1 v.fastShift && fits 2 v.fastBound && fits 2 v.haltBand
    && fits 2 v.minWords && fits 2 v.wrap && fits 1 v.standbyLit && fits 1 v.standbyDark && fits 1 v.onAirLit
    && fits 1 v.onAirDark && fits 1 v.wrapLit && fits 1 v.wrapDark

/-- The settings of ROUTE.WRITE: codes and subsets of one byte, base and mask of two. -/
def RouteSettings.wellFormed (v : RouteSettings) : Bool :=
  fits 1 v.enabled && fits 2 v.base && fits 2 v.mask && fits 1 v.tracks && fits 1 v.actions && v.delivery.wellFormed

/-- The settings of CHANNEL.CONFIG. -/
def ChannelSettings.wellFormed (v : ChannelSettings) : Bool :=
  fits 1 v.kind && fits 1 v.faultMode && fits 2 v.pollInterval && fits 2 v.silentLimit && fits 2 v.retryInterval

/-- The settings of PART.CONFIG: a mask of two bytes, codes of one. -/
def PartSettings.wellFormed (v : PartSettings) : Bool :=
  fits 2 v.mask && fits 1 v.frameRate && fits 1 v.debounce && fits 1 v.routeEnabled && v.delivery.wellFormed

/-- The blocks whose frame work a frame event carries out: each at most once (R62). -/
def FrameEvent.wellFormed (e : FrameEvent) : Bool := decide e.now.Nodup

/-- No frame that a hunting receiver completes from these bytes is valid (R164). -/
def allDiscarded (k : RxLink) (bytes : List Byte) : Bool := (Receiver.feedAll .hunting bytes).2.all (fun l => !validFrame k l)

/-- A command that can reach the part. -/
def Instr.wellFormed : Instr → Bool
  | .itemCreate track anchor block cues => (Edit.create track anchor block cues).wellFormed
  | .itemUpdate id revision fields block => (Edit.update id revision fields block).wellFormed
  | .itemMove id revision anchor => (Edit.move id revision anchor).wellFormed
  | .itemRetire id revision => (Edit.retire id revision).wellFormed
  | .itemRestore id revision => (Edit.restore id revision).wellFormed
  | .itemCues id revision cues => (Edit.cues id revision cues).wellFormed
  | .itemRead id => fits 2 id
  | .itemFind key => fits 4 key
  | .rundownList track start count => fits 1 track && fits 2 start && fits 1 count
  | .stagedEdit group edit => fits 1 group && decide (group ≠ 0xFF) && edit.wellFormed
  | .groupOpen group track => fits 1 group && fits 1 track
  | .groupLaunch group mode => fits 1 group && fits 1 mode
  | .groupDiscard group => fits 1 group
  | .groupRead group => fits 1 group
  | .trackTake track => fits 1 track
  | .trackSkip track => fits 1 track
  | .trackHold track value => fits 1 track && fits 1 value
  | .trackConfig track fields settings => fits 1 track && fits 1 fields && settings.wellFormed
  | .trackRead track => fits 1 track
  | .trackReset track => fits 1 track
  | .timeSet value => fits 4 value
  | .timeRead => true
  | .presenterConfig position fields settings => fits 1 position && fits 2 fields && settings.wellFormed
  | .presenterSeed position rate => fits 1 position && fits 2 rate
  | .presenterRead position => fits 1 position
  | .routeWrite entry fields settings => fits 1 entry && fits 2 fields && settings.wellFormed
  | .routeRead entry => fits 1 entry
  | .routeTest target action track => fits 2 target && fits 1 action && fits 1 track
  | .channelConfig channel fields settings => fits 1 channel && fits 1 fields && settings.wellFormed
  | .channelClear channel => fits 1 channel
  | .channelRead channel => fits 1 channel
  | .eventRead => true
  | .eventAckReset => true
  | .partConfig fields settings => fits 2 fields && settings.wellFormed
  | .partRead => true
  | .partReset => true
  | .unknownRequest length bytes partByte => decide (0 < length) && fits 1 length && (framing length bytes partByte).isSome
  | .readTransaction clocked =>
    match clocked with
    | .upTo n => decide (0 < n)
    | .whole _ => true
  | .powerOn => true
  | .rstAssert => true
  | .rstRelease => true
  | .refPulse _ frame => frame.wellFormed
  | .flywheelTick frame => frame.wellFormed
  | .referenceLoss frame => frame.wellFormed
  | .panelDebounceExpiry _ => true
  | .lockoutExpiry _ => true
  | .autoTake _ => true
  | .hardInTake _ => true
  | .presenterCompletion => true
  | .cueOffer => true
  | .cueCompletion => true
  | .cueAgedLate _ => true
  | .dwellExpiry _ => true
  | .answerTimeout _ => true
  | .guardExpiry _ => true
  | .recoveryExpiry _ => true
  | .silentFault _ => true
  | .poll _ => true
  | .accept _ _ => true
  | .refuse _ _ => true
  | .status _ _ => true
  | .deviceFrameOther c type payload => (incomingSize (.device c) type).isNone && fits 1 payload.length
  | .endReport _ _ => true
  | .linkTransmitDone _ => true
  | .discardedLinkFrame k bytes => allDiscarded k bytes

/-- The command is a write transaction that carries a request (R150, R151). -/
def Instr.isRequest : Instr → Bool
  | .itemCreate .. => true
  | .itemUpdate .. => true
  | .itemMove .. => true
  | .itemRetire .. => true
  | .itemRestore .. => true
  | .itemCues .. => true
  | .itemRead .. => true
  | .itemFind .. => true
  | .rundownList .. => true
  | .stagedEdit .. => true
  | .groupOpen .. => true
  | .groupLaunch .. => true
  | .groupDiscard .. => true
  | .groupRead .. => true
  | .trackTake .. => true
  | .trackSkip .. => true
  | .trackHold .. => true
  | .trackConfig .. => true
  | .trackRead .. => true
  | .trackReset .. => true
  | .timeSet .. => true
  | .timeRead => true
  | .presenterConfig .. => true
  | .presenterSeed .. => true
  | .presenterRead .. => true
  | .routeWrite .. => true
  | .routeRead .. => true
  | .routeTest .. => true
  | .channelConfig .. => true
  | .channelClear .. => true
  | .channelRead .. => true
  | .eventRead => true
  | .eventAckReset => true
  | .partConfig .. => true
  | .partRead => true
  | .partReset => true
  | .unknownRequest .. => true
  | .readTransaction .. => false
  | .powerOn => false
  | .rstAssert => false
  | .rstRelease => false
  | .refPulse .. => false
  | .flywheelTick .. => false
  | .referenceLoss .. => false
  | .panelDebounceExpiry .. => false
  | .lockoutExpiry .. => false
  | .autoTake .. => false
  | .hardInTake .. => false
  | .presenterCompletion => false
  | .cueOffer => false
  | .cueCompletion => false
  | .cueAgedLate .. => false
  | .dwellExpiry .. => false
  | .answerTimeout .. => false
  | .guardExpiry .. => false
  | .recoveryExpiry .. => false
  | .silentFault .. => false
  | .poll .. => false
  | .accept .. => false
  | .refuse .. => false
  | .status .. => false
  | .deviceFrameOther .. => false
  | .endReport .. => false
  | .linkTransmitDone .. => false
  | .discardedLinkFrame .. => false

/-- The command ends or holds a part reset, or makes one (R160). -/
def Instr.isReset : Instr → Bool
  | .powerOn => true
  | .rstAssert => true
  | .rstRelease => true
  | .partReset => true
  | _ => false

end Sys2Proof
end

