-- ==== Sys2Proof/Safety.lean ====
section
/-! DEFINITION. What a state must satisfy, and what an operation keeps, in the terms the statements use. -/

namespace Sys2Proof.Machine

/-! ### The port -/

/-- The port takes a request: the part is not held in reset and the response buffer is EMPTY (R150, R160). -/
def State.portFree (s : State) : Prop := s.held = false ∧ s.buffer = .empty

/-- The state after a request of `n` bytes after its length byte that changes nothing but the answer: the summary status and a
fill byte for each of those bytes shifted out, and the response buffered (R150, R152). -/
def State.answeredWith (s : State) (n : Nat) (r : Result) (b : Body) : State :=
  { s with sdoStatus := s.summary, sdo := List.replicate n 0, buffer := .ready ⟨r, b⟩ }

/-- A request of `n` bytes after its length byte answered: the summary status and the fill shifted out, and the answer in the
buffer (R150, R152). -/
structure State.Answers (s u : State) (n : Nat) (r : Result) (b : Body) : Prop where
  status : u.sdoStatus = s.summary
  sdo : u.sdo = List.replicate n 0
  buffer : u.buffer = .ready ⟨r, b⟩

/-- OK, or CLAMPED where a number was stored at its limit (R155). -/
def okOr (clamped : Bool) : Result := if clamped then .clamped else .ok

/-! ### Requests as bytes (section 11.2) -/

/-- The bytes of an item write request after its length byte: the code, the group field and the fields of section 11.2. -/
def writeLengthOf : Edit → Nat
  | .create _ _ _ cues => 26 + 7 * cues.length
  | .update .. => 28
  | .move .. => 8
  | .retire .. => 6
  | .restore .. => 6
  | .cues _ _ cues => 7 + 7 * cues.length

end Sys2Proof.Machine

namespace Sys2Proof

open Sys2Proof.Machine

/-- The bytes of a write after its length byte: the code and the body of the request's size (section 11.2). -/
def Instr.writeLength : Instr → Nat
  | .itemCreate _ _ _ cues => 26 + 7 * cues.length
  | .itemUpdate .. => 28
  | .itemMove .. => 8
  | .itemRetire .. => 6
  | .itemRestore .. => 6
  | .itemCues _ _ cues => 7 + 7 * cues.length
  | .stagedEdit _ edit => writeLengthOf edit
  | .itemFind _ => 5
  | .rundownList .. => 5
  | .timeSet _ => 5
  | .routeTest .. => 5
  | .presenterSeed .. => 4
  | .itemRead _ => 3
  | .groupOpen .. => 3
  | .groupLaunch .. => 3
  | .trackHold .. => 3
  | .trackConfig .. => 14
  | .presenterConfig .. => 21
  | .routeWrite .. => 21
  | .channelConfig .. => 11
  | .partConfig .. => 18
  | .groupDiscard _ => 2
  | .groupRead _ => 2
  | .trackTake _ => 2
  | .trackSkip _ => 2
  | .trackRead _ => 2
  | .trackReset _ => 2
  | .presenterRead _ => 2
  | .routeRead _ => 2
  | .channelClear _ => 2
  | .channelRead _ => 2
  | .timeRead => 1
  | .eventRead => 1
  | .eventAckReset => 1
  | .partRead => 1
  | .partReset => 1
  | .unknownRequest _ bytes _ => bytes.length
  | _ => 0

/-- The command that a write of any bytes comes to: the request its bytes spell where they pass the framing checks, a read where the
length byte is 0 (R150, R151), and the write itself otherwise. Any other command is itself. -/
def Instr.spelled : Instr → Instr
  | .unknownRequest length bytes part =>
    if length = 0 then .readTransaction (.upTo (bytes.length + 1))
    else
      match framing length bytes part, bytes with
      | none, code :: body => (requestOf code.toNat body).getD (.unknownRequest length bytes part)
      | _, _ => .unknownRequest length bytes part
  | c => c

/-- The 20 bytes of an item field block (section 11.2). -/
def RawBlock.written (b : RawBlock) : List Byte :=
  beBytes 4 b.key ++ beBytes 1 b.kind ++ beBytes 1 b.flags ++ beBytes 1 b.presenter ++ beBytes 2 b.words ++ beBytes 3 b.planned ++
    beBytes 4 b.hardIn ++ beBytes 4 b.script

/-- The 7 bytes of a cue entry in a request (section 11.2). -/
def RawCue.written (c : RawCue) : List Byte := beBytes 1 c.phaseAction ++ beBytes 2 c.offset ++ beBytes 2 c.target ++ beBytes 2 c.param

/-- A cue count byte and the entries (section 11.2). -/
def cuesWritten (l : List RawCue) : List Byte := beBytes 1 l.length ++ (l.map RawCue.written).flatten

/-- The bytes of an item write request after its length byte, with its group field (section 11.2). -/
def Edit.written (group : Nat) : Edit → List Byte
  | .create track anchor block list =>
    0x01#8 :: (beBytes 1 group ++ beBytes 1 track ++ beBytes 2 anchor ++ block.written ++ cuesWritten list)
  | .update id revision fields block =>
    0x02#8 :: (beBytes 1 group ++ beBytes 2 id ++ beBytes 2 revision ++ beBytes 2 fields ++ block.written)
  | .move id revision anchor => 0x03#8 :: (beBytes 1 group ++ beBytes 2 id ++ beBytes 2 revision ++ beBytes 2 anchor)
  | .retire id revision => 0x04#8 :: (beBytes 1 group ++ beBytes 2 id ++ beBytes 2 revision)
  | .restore id revision => 0x05#8 :: (beBytes 1 group ++ beBytes 2 id ++ beBytes 2 revision)
  | .cues id revision list => 0x06#8 :: (beBytes 1 group ++ beBytes 2 id ++ beBytes 2 revision ++ cuesWritten list)

/-- The bytes of a request after its length byte; none for a command that carries no request, and for the five requests of settings,
whose layout no table gives. -/
def Instr.written : Instr → Option (List Byte)
  | .itemCreate track anchor block cues => some ((Edit.create track anchor block cues).written 0xFF)
  | .itemUpdate id revision fields block => some ((Edit.update id revision fields block).written 0xFF)
  | .itemMove id revision anchor => some ((Edit.move id revision anchor).written 0xFF)
  | .itemRetire id revision => some ((Edit.retire id revision).written 0xFF)
  | .itemRestore id revision => some ((Edit.restore id revision).written 0xFF)
  | .itemCues id revision cues => some ((Edit.cues id revision cues).written 0xFF)
  | .stagedEdit group edit => some (edit.written group)
  | .itemRead id => some (0x07#8 :: beBytes 2 id)
  | .itemFind key => some (0x08#8 :: beBytes 4 key)
  | .rundownList track start count => some (0x09#8 :: (beBytes 1 track ++ beBytes 2 start ++ beBytes 1 count))
  | .groupOpen group track => some (0x10#8 :: (beBytes 1 group ++ beBytes 1 track))
  | .groupLaunch group mode => some (0x11#8 :: (beBytes 1 group ++ beBytes 1 mode))
  | .groupDiscard group => some (0x12#8 :: beBytes 1 group)
  | .groupRead group => some (0x13#8 :: beBytes 1 group)
  | .trackTake track => some (0x20#8 :: beBytes 1 track)
  | .trackSkip track => some (0x21#8 :: beBytes 1 track)
  | .trackHold track value => some (0x22#8 :: (beBytes 1 track ++ beBytes 1 value))
  | .trackRead track => some (0x24#8 :: beBytes 1 track)
  | .trackReset track => some (0x25#8 :: beBytes 1 track)
  | .timeSet value => some (0x28#8 :: beBytes 4 value)
  | .timeRead => some [0x29#8]
  | .presenterSeed position rate => some (0x31#8 :: (beBytes 1 position ++ beBytes 2 rate))
  | .presenterRead position => some (0x32#8 :: beBytes 1 position)
  | .routeRead entry => some (0x39#8 :: beBytes 1 entry)
  | .routeTest target action track => some (0x3A#8 :: (beBytes 2 target ++ beBytes 1 action ++ beBytes 1 track))
  | .channelClear channel => some (0x41#8 :: beBytes 1 channel)
  | .channelRead channel => some (0x42#8 :: beBytes 1 channel)
  | .eventRead => some [0x50#8]
  | .eventAckReset => some [0x51#8]
  | .partRead => some [0x53#8]
  | .partReset => some [0x54#8]
  | _ => none

end Sys2Proof

namespace Sys2Proof.Machine

/-! ### The write requests as they arrive (R12) -/

/-- The number an anchor is given by: an item's ID, or FFFFh for the head (section 11.2). -/
def anchorCode (a : Option Slot) : Nat := (a.map Fin.val).getD 0xFFFF

/-- A cue entry with a phase or action code that section 11.2 does not define. -/
def cueFormBad (c : RawCue) : Prop := 3 ≤ c.phaseAction / 16 ∨ 6 ≤ c.phaseAction % 16

/-- An anchor that is neither a slot number nor FFFFh. -/
def anchorFormBad (a : Nat) : Prop := 512 ≤ a ∧ a ≠ 0xFFFF

/-- What step 1 of R12 refuses, request by request: a number out of its identifier range, a code that is not defined, a key of
0, a list longer than 16, and a field set that is empty or names no field (R12, R14, R163). -/
def editFormBad : Edit → Prop
  | .create track anchor block cues =>
    2 ≤ track ∨ anchorFormBad anchor ∨ block.key = 0 ∨ 5 ≤ block.kind ∨ 64 ≤ block.flags ∨
      (block.flags.testBit 3 = true ∧ 8 ≤ block.presenter) ∨ 16 < cues.length ∨ ∃ c ∈ cues, cueFormBad c
  | .update id _ fields block =>
    512 ≤ id ∨ fields = 0 ∨ 1024 ≤ fields ∨ 64 ≤ block.flags ∨ (fields.testBit 0 = true ∧ block.key = 0) ∨
      (fields.testBit 1 = true ∧ 5 ≤ block.kind) ∨
      (fields.testBit 3 = true ∧ block.flags.testBit 3 = true ∧ 8 ≤ block.presenter)
  | .move id _ anchor => 512 ≤ id ∨ anchorFormBad anchor
  | .retire id _ => 512 ≤ id
  | .restore id _ => 512 ≤ id
  | .cues id _ cues => 512 ≤ id ∨ 16 < cues.length ∨ ∃ c ∈ cues, cueFormBad c

/-- The item and the revision an edit carries; a CREATE carries none (R13 to R19). -/
def editNames : Edit → Option (Nat × Nat)
  | .create .. => none
  | .update id revision _ _ => some (id, revision)
  | .move id revision _ => some (id, revision)
  | .retire id revision => some (id, revision)
  | .restore id revision => some (id, revision)
  | .cues id revision _ => some (id, revision)

/-- The item is its track's ON_AIR item. -/
def State.airs (s : State) (i : Slot) : Prop := (s.track (s.slot i).track).onAir = some i

/-- A live item other than the one named holds the key (R8). -/
def State.keyTaken (s : State) (key : Nat) (named : Option Slot) : Prop :=
  ∃ j, (s.slot j).isLive = true ∧ (s.slot j).fields.key = BitVec.ofNat 32 key ∧ named ≠ some j

/-- A position names an item that is not live in the track, or names the item itself (R12 step 5). -/
def State.anchorBad (s : State) (t : Track) (named : Option Slot) (anchor : Nat) : Prop :=
  ∃ a : Slot, anchor = a.val ∧ ¬((s.slot a).isLive = true ∧ (s.slot a).track = t ∧ named ≠ some a)

/-- An anchor of a staged edit that is neither a live item of the group's track nor a slot the group has reserved, or that is the
named item itself (R27 step 7). -/
def State.stagedAnchorBad (s : State) (g : GroupNo) (named : Option Slot) (anchor : Nat) : Prop :=
  ∃ a : Slot, anchor = a.val ∧
    ¬(named ≠ some a ∧ (a ∈ (s.group g).reserved ∨ ((s.slot a).isLive = true ∧ (s.slot a).track = (s.group g).track)))

/-- The fields of an item as a field block gives those of them that a test names, and as they stood otherwise (R13, R14): words
and planned at the nearest limit of their range (R12). -/
structure Fields.GivenBy (given before : Fields) (b : RawBlock) (named : Nat → Bool) : Prop where
  key : given.key = if named 0 then BitVec.ofNat 32 b.key else before.key
  kind : if named 1 then kindOf b.kind = some given.kind else given.kind = before.kind
  floated : given.floated = if named 2 then b.flags.testBit 0 else before.floated
  presenter : given.presenter.map Fin.val =
    if named 3 then (if b.flags.testBit 3 then some b.presenter else none) else before.presenter.map Fin.val
  words : given.words = if named 4 then min b.words 4095 else before.words
  planned : given.planned = if named 5 then min b.planned 1048575 else before.planned
  timed : given.timed = if named 6 then b.flags.testBit 1 else before.timed
  auto : given.auto = if named 7 then b.flags.testBit 2 else before.auto
  hardIn : given.hardIn =
    if named 8 then (if b.flags.testBit 4 then some (BitVec.ofNat 32 b.hardIn) else none) else before.hardIn
  script : given.script =
    if named 9 then (if b.flags.testBit 5 then some (BitVec.ofNat 32 b.script) else none) else before.script

/-- A cue of a list is what the host gave: the codes of section 11.2, and the offset kept for START alone (R13). -/
structure CueSpec.GivenBy (q : CueSpec) (c : RawCue) : Prop where
  phase : phaseOf (c.phaseAction / 16) = some q.phase
  action : actionOf (c.phaseAction % 16) = some q.action
  offset : q.offset = if q.phase = .start then c.offset else 0
  target : q.target = BitVec.ofNat 16 c.target
  param : q.param = BitVec.ofNat 16 c.param

/-! ### What no edit, take, cue or channel event reaches -/

/-- The two states agree on the time base, the panel, the routes, the presenter records and lights, the display link, the
receivers, the configuration of the control link, and the model's own fields: nothing that an edit, a skip, a track reset, an
arming, an offer or a channel's work reaches. -/
structure State.Aside (s t : State) : Prop where
  panel : t.panel = s.panel
  sfc : t.sfc = s.sfc
  reference : t.reference = s.reference
  qualifying : t.qualifying = s.qualifying
  sinceFrame : t.sinceFrame = s.sinceFrame
  sinceTimer : t.sinceTimer = s.sinceTimer
  sincePulse : t.sincePulse = s.sincePulse
  lastTick : t.lastTick = s.lastTick
  presenters : t.presenters = s.presenters
  routes : t.routes = s.routes
  isGlobal : t.isGlobal = s.isGlobal
  defaultRoute : t.defaultRoute = s.defaultRoute
  lights : t.lights = s.lights
  rotation : t.rotation = s.rotation
  mask : t.mask = s.mask
  debounce : t.debounce = s.debounce
  frameRate : t.frameRate = s.frameRate
  displayTx : t.displayTx = s.displayTx
  deviceRx : t.deviceRx = s.deviceRx
  prompterRx : t.prompterRx = s.prompterRx
  held : t.held = s.held
  due : t.due = s.due
  cut : t.cut = s.cut
  counted : t.counted = s.counted
  looks : t.looks = s.looks
  pending : t.pending = s.pending

/-- The two states agree on the item table, the orders, the groups and the tracks. -/
structure State.SameRundown (s t : State) : Prop where
  slots : t.slots = s.slots
  orders : t.orders = s.orders
  groups : t.groups = s.groups
  armed : t.armed = s.armed
  tracks : t.tracks = s.tracks

/-- Every event flag set in the first is set in the second. -/
def EventSet.Within (f g : EventSet) : Prop := ∀ e, f.get e = true → g.get e = true

/-- What a READY choice leaves of every item: its condition, revision, track, fields, start, actual and prompter end, and of each
cue of its list what the host gave (R44, R45). -/
structure Item.Alike (x y : Item) : Prop where
  condition : y.condition = x.condition
  revision : y.revision = x.revision
  track : y.track = x.track
  fields : y.fields = x.fields
  specs : y.cues.map Cue.spec = x.cues.map Cue.spec
  start : y.start = x.start
  actual : y.actual = x.actual
  prompterEnd : y.prompterEnd = x.prompterEnd

/-- What an edit, the apply of a group or a track reset leaves of what a track's sequencer looks at in the frame work of a frame event
already made: it may lose hard-ins and its auto, and gains nothing, so that what they give acts from the next (R14, R51, R52). -/
structure Look.Keeps (x y : Look) : Prop where
  takeDelay : y.takeDelay = x.takeDelay
  hostHold : y.hostHold = x.hostHold
  auto : y.auto = true → x.auto = true
  hardIns : y.hardIns.Sublist x.hardIns

/-- What an edit, and the READY choice that follows it, leaves as it was outside the item it names: every other item but for
the choice, the other track's record, the track's own record but its pointers, the over/under status, the completions of reads,
and all that no edit reaches. Event flags may rise, and the choice may arm and offer cues. -/
structure State.EditOf (s u : State) (t : Track) (i : Slot) : Prop where
  aside : (s.setLooks u.looks).Aside u
  looks : ∀ v, (s.look v).Keeps (u.look v)
  flags : s.flags.Within u.flags
  status : u.status = s.status
  readsDone : u.readsDone = s.readsDone
  groups : u.groups = s.groups
  armed : u.armed = s.armed
  others : ∀ j, j ≠ i → (s.slot j).Alike (u.slot j)
  otherTrack : ∀ v, v ≠ t → u.track v = s.track v ∧ u.order v = s.order v
  ownTrack : u.track t = { s.track t with ready := (u.track t).ready }

/-- Where the READY item stays as it was, an edit of an item with no cue waiting reaches no other item, cue or channel. -/
structure State.QuietBut (s u : State) (i : Slot) : Prop where
  others : ∀ j, j ≠ i → u.slot j = s.slot j
  flags : u.flags = s.flags
  firing : u.firing = s.firing
  cuesDone : u.cuesDone = s.cuesDone
  channels : u.channels = s.channels
  deviceTx : u.deviceTx = s.deviceTx

/-- Entries of the firing list have been offered to their channels, one after another (R98). -/
inductive State.Offered : State → List Firing → State → Prop
  | nil (s : State) : State.Offered s [] s
  | cons {s u : State} {e : Firing} {l : List Firing} : State.Offered (s.offer e) l u → State.Offered s (e :: l) u

/-- The cues of a phase at some indexes of an item's list have been armed, one after another (R94). -/
inductive State.CuesArmed (ph : Phase) (base : Frame) (i : Slot) : State → List Nat → State → Prop
  | nil (s : State) : State.CuesArmed ph base i s [] s
  | cons {s u : State} {k : Nat} {l : List Nat} : State.CuesArmed ph base i (State.armCue ph base i s k) l u →
    State.CuesArmed ph base i s (k :: l) u

/-- The cue scheduler has taken every completion in its list, from its head (R103). -/
inductive State.CompletionsTaken : State → State → Prop
  | nil {s : State} : s.cuesDone = [] → State.CompletionsTaken s s
  | cons {s v u : State} : s.cuesDone ≠ [] → exec .cueCompletion s = .next v → State.CompletionsTaken v u →
    State.CompletionsTaken s u

/-- No READY channel has a cue queued, as at the end of every event (R118). -/
def State.QueuesIdle (s : State) : Prop := ∀ c, (s.channel c).state = .ready → (s.channel c).queue = []

/-- A cue as an abandonment of those that a test selects leaves it: ABANDONED if it was ARMED or QUEUED, or else as it is (R100). -/
def Cue.abandonedIf (which : Cue → Bool) (q : Cue) : Cue :=
  if which q = true ∧ (q.state = .armed ∨ q.state = .queued) then { q with state := .abandoned } else q

/-- The cues of item `i` that a test selects have been abandoned: those ARMED have left the firing list, those QUEUED the wait queue of
their channel, and nothing else has changed (R100, R101). -/
structure State.Abandoned (s u : State) (i : Slot) (which : Cue → Bool) : Prop where
  item : u.slot i = { s.slot i with cues := (s.slot i).cues.map (Cue.abandonedIf which) }
  others : ∀ j, j ≠ i → u.slot j = s.slot j
  firing : u.firing = s.firing.filter (fun e =>
    !(decide (e.slot = i) && (s.cue? i e.index).any (fun q => which q && decide (q.state = .armed))))
  queues : ∀ c, u.channel c = { s.channel c with
    queue := (s.channel c).queue.filter (fun x =>
      !(decide (x.cue.slot = i) && (s.cue? i x.cue.index).any (fun q =>
        which q && decide (q.state = .queued) && q.resolved.any (fun r => decide (r.delivery.channel = c))))) }
  rest : u = { s with slots := u.slots, firing := u.firing, channels := u.channels }

/-- The READY item of a track returns to PLANNED by the READY choice: its READY-phase cues that wait are abandoned, and the pointer is
absent (R44, R45, R101). -/
def State.LeavesReady (s v : State) (t : Track) (r : Slot) : Prop :=
  ((s.setSlot r { s.slot r with state := if (s.slot r).state = .ready then .planned else (s.slot r).state }).setTrack t
    { s.track t with ready := none }).Abandoned v r (fun q => decide (q.spec.phase = .ready))

/-- An item enters READY by the READY choice: its airing advances and its cue fault is no, every cue that is not SENT and every READY-phase
cue takes state PENDING, its READY-phase cues are armed at the current frame, and its script is loaded (R45, R96, R145). -/
def State.EntersReady (v u : State) (t : Track) (i : Slot) : Prop :=
  u = { ((v.setSlot i { v.slot i with
            airing := nextAiring (v.slot i).airing, state := .ready, cueFault := false
            cues := (v.slot i).cues.map (fun q => if q.state = .sent ∧ q.spec.phase ≠ .ready then q else q.spec.fresh) }).setTrack t
          { v.track t with ready := some i }).armPhase .ready v.sfc i with
        prompterTx := match (v.slot i).fields.script with
          | some f => v.prompterTx.push (.loadScript f t)
          | none => v.prompterTx }

/-- The first five steps of a track reset (R55): the cues of the track's items that wait withdrawn, the items returned to PLANNED with
every cue PENDING, the pointers, the lockout, the last take and the status cleared, with the TIMING event where the status was not NONE
(R77), and the track's OPEN and ARMED groups discarded (R37). Nothing else has changed. -/
structure State.TrackReturned (s v : State) (t : Track) : Prop where
  returned : ∀ i, i ∈ s.order t → (s.slot i).state = .ready ∨ (s.slot i).state = .onAir ∨ (s.slot i).state = .done ∨
      (s.slot i).state = .skipped →
    v.slot i = { s.slot i with
      revision := nextRevision (s.slot i).revision, airing := nextAiring (s.slot i).airing, state := .planned, start := none
      actual := none, prompterEnd := none, cueFault := false, cues := (s.slot i).cues.map (fun q => q.spec.fresh) }
  planned : ∀ i, i ∈ s.order t → (s.slot i).state = .planned →
    v.slot i = { s.slot i with cueFault := false, cues := (s.slot i).cues.map (fun q => q.spec.fresh) }
  freed : ∀ g i, (s.group g).track = t → (s.group g).state ≠ .idle → i ∈ (s.group g).reserved →
    v.slot i = { revision := (s.slot i).revision, airing := (s.slot i).airing }
  others : ∀ i, i ∉ s.order t → (∀ g, (s.group g).track = t → (s.group g).state ≠ .idle → i ∉ (s.group g).reserved) →
    v.slot i = s.slot i
  groups : ∀ g, (s.group g).track = t → (s.group g).state ≠ .idle →
    v.group g = { s.group g with state := .idle, edits := [], reserved := [], reservedEntries := 0, last := .none }
  otherGroups : ∀ g, (s.group g).track ≠ t ∨ (s.group g).state = .idle → v.group g = s.group g
  queue : v.armedQueue t = []
  otherQueue : ∀ r, r ≠ t → v.armedQueue r = s.armedQueue r
  track : v.track t = { s.track t with onAir := none, ready := none, lockoutCount := 0, lastTake := none }
  otherTrack : ∀ r, r ≠ t → v.track r = s.track r ∧ v.statusOf r = s.statusOf r
  status : v.statusOf t = .none
  flags : v.flags = if s.statusOf t = .none then s.flags else s.flags.put (timingEvent t)
  firing : v.firing = s.firing.filter (fun e =>
    !(decide (e.slot ∈ s.order t) && (s.cue? e.slot e.index).any (fun q => decide (q.state = .armed))))
  queues : ∀ c, v.channel c = { s.channel c with
    queue := (s.channel c).queue.filter (fun x =>
      !(decide (x.cue.slot ∈ s.order t) && (s.cue? x.cue.slot x.cue.index).any (fun q =>
        decide (q.state = .queued) && q.resolved.any (fun r => decide (r.delivery.channel = c))))) }
  rest : v = { s with
    slots := v.slots, groups := v.groups, armed := v.armed, tracks := v.tracks, status := v.status, flags := v.flags
    firing := v.firing, channels := v.channels }

/-- An item becomes SKIPPED by a skip or by a hard-in take that passes it over: its revision advances, and if it was READY its READY-phase
cues that wait are abandoned (R45, R52, R54, R101). -/
def State.Skips (s v : State) (i : Slot) : Prop :=
  (s.setSlot i { s.slot i with revision := nextRevision (s.slot i).revision, state := .skipped }).Abandoned v i
    (fun q => decide ((s.slot i).state = .ready) && decide (q.spec.phase = .ready))

/-- Items passed over become SKIPPED, one after another (R52). -/
inductive State.PassedOver : State → List Slot → State → Prop
  | nil (s : State) : State.PassedOver s [] s
  | cons {s v u : State} {j : Slot} {l : List Slot} : s.Skips v j → State.PassedOver v l u → State.PassedOver s (j :: l) u

/-- The item has no cue ARMED or QUEUED. -/
def State.noneWaiting (s : State) (i : Slot) : Prop := ∀ q ∈ (s.slot i).cues, q.state ≠ .armed ∧ q.state ≠ .queued

/-- The completion a take hands the presenter unit for the item that leaves air (R47, R48). -/
def State.completionOf (s : State) (o : Slot) (startIn : Frame) : ReadDone :=
  let x := s.slot o
  { item := o, track := x.track, kind := x.fields.kind, presenter := x.fields.presenter, words := x.fields.words
    timed := x.fields.timed, start := x.start.getD startIn, actual := (frameDiff startIn (x.start.getD startIn)).toNat
    prompterEnd := x.prompterEnd }

/-- Stage 1 of a take: the item on air, if there is one, becomes DONE with its actual, its START-phase cues that wait are abandoned, its
END-phase cues that are PENDING armed against the incoming start, and its completion handed over (R46 to R48, R97). -/
def State.LeavesAir (s v : State) (t : Track) (startIn : Frame) : Prop :=
  ((s.track t).onAir = none → v = s) ∧
  ∀ o, (s.track t).onAir = some o →
    ∃ z, (s.setSlot o { s.slot o with
        revision := nextRevision (s.slot o).revision, state := .done, actual := some (s.completionOf o startIn).actual }).Abandoned z o
        (fun q => decide (q.spec.phase = .start)) ∧
      v = (z.armPhase .ending startIn o).setReadsDone (s.readsDone ++ [s.completionOf o startIn])

/-- Stage 2 of a take but for the frames it sends the prompter: item `i` is ON_AIR with start `startIn`, its counters advanced and its
prompter end absent, its cue fault cleared unless it stood READY, the pointers name it, and its START-phase cues that are PENDING are armed
against its start (R46, R97). -/
def State.EntersAir (v u : State) (t : Track) (i : Slot) (startIn : Frame) : Prop :=
  u = { ((v.setSlot i { v.slot i with
            airing := nextAiring (v.slot i).airing, revision := nextRevision (v.slot i).revision, state := .onAir
            start := some startIn, prompterEnd := none
            cueFault := decide ((v.slot i).state = .ready) && (v.slot i).cueFault }).setTrack t
          { v.track t with onAir := some i, ready := none }).armPhase .start startIn i with prompterTx := u.prompterTx }

/-- The state as the first stage of a take finds it: the sequencer's frame work may have counted the lockout, and the transaction that
asks for the take has shifted its bytes out. -/
def State.atTake (s w : State) (t : Track) : State :=
  ({ s with cut := w.cut, sdoStatus := w.sdoStatus, sdo := w.sdo, buffer := w.buffer } : State).setTrack t
    { s.track t with lockoutCount := (w.track t).lockoutCount }

/-- The first two stages of a take of a track that puts item `i` on air with start `startIn`, passing over `between`, with the frames
they send the prompter (R46 to R48, R52, R145, R146), and the cues they abandon and arm (R97). -/
structure State.CutTo (s w : State) (t : Track) (i : Slot) (startIn : Frame) (between : List Slot) : Prop where
  track : w.track t = { s.track t with onAir := some i, ready := none, lockoutCount := (w.track t).lockoutCount }
  otherTrack : ∀ v, v ≠ t → w.track v = s.track v
  aside : (s.setCut w.cut).Aside w
  flags : s.flags.Within w.flags
  status : w.status = s.status
  orders : w.orders = s.orders
  groups : w.groups = s.groups
  armed : w.armed = s.armed
  completion : w.readsDone = s.readsDone ++ ((s.track t).onAir.map (fun o => s.completionOf o startIn)).toList
  incoming : i ∉ between → (s.track t).onAir ≠ some i →
    (w.slot i).state = .onAir ∧ (w.slot i).start = some startIn ∧ (w.slot i).prompterEnd = none ∧
      (w.slot i).revision = nextRevision (s.slot i).revision ∧ (w.slot i).airing = nextAiring (s.slot i).airing
  outgoing : ∀ o, (s.track t).onAir = some o → o ≠ i → o ∉ between →
    (w.slot o).state = .done ∧ (w.slot o).actual = some (s.completionOf o startIn).actual ∧
      (w.slot o).start = (s.slot o).start ∧ (w.slot o).revision = nextRevision (s.slot o).revision
  passed : ∀ j ∈ between, j ≠ i → (w.slot j).state = .skipped
  prompter : i ∉ between → (s.track t).onAir ≠ some i →
    w.prompterTx =
      ((if (s.slot i).state = .ready then [] else ((s.slot i).fields.script.map (fun f => OutFrame.loadScript f t)).toList) ++
        ((s.slot i).fields.script.map (fun f => OutFrame.go f t)).toList).foldl Transmit.push s.prompterTx
  others : ∀ j, j ≠ i → (s.track t).onAir ≠ some j → j ∉ between → (s.slot j).Alike (w.slot j)
  cues : s.QueuesIdle → ∃ a b, (s.atTake w t).LeavesAir a t startIn ∧ a.PassedOver between b ∧ b.EntersAir w t i startIn

/-- A take of a track put item `i` on air with start `startIn`, passing over `between` (R46 to R49): the first two stages, then the
track's armed groups applied from the head of its queue, each ending IDLE, then the READY choice, the lockout and the event. What the
take leaves of each item, and the frames it sends the prompter, are told whole for a track with no group armed. A take made ahead of the
sequencer's frame work of its own frame event is marked (notes/assumptions/3.md). -/
structure State.TookItem (s u : State) (t : Track) (i : Slot) (startIn : Frame) (between : List Slot) : Prop where
  stages : ∃ w, s.CutTo w t i startIn between ∧ u = ((w.applyArmed t s.slots).readyChoice t).takeClose t
  track : u.track t = { s.track t with
    onAir := some i, ready := (u.candidates t).head?, lockoutCount := (s.track t).lockout, lastTake := some s.sfc }
  otherTrack : s.armedQueue t = [] → ∀ v, v ≠ t → u.track v = s.track v
  event : u.flags.get (takeEvent t) = true
  flags : s.flags.Within u.flags
  aside : ((s.setCut u.cut).setLooks u.looks).Aside u
  looks : ∀ v, (s.look v).Keeps (u.look v)
  unedited : s.armedQueue t = [] → u.looks = s.looks
  cut : u.cut = s.cut.set t (decide (.sequencer t ∈ s.due))
  status : u.status = s.status
  completion : u.readsDone = s.readsDone ++ ((s.track t).onAir.map (fun o => s.completionOf o startIn)).toList
  groups : ∀ g ∈ s.armedQueue t, ∃ last, u.group g =
    { s.group g with state := .idle, edits := [], reserved := [], reservedEntries := 0, last := last } ∧ last ≠ .none
  otherGroups : ∀ g, g ∉ s.armedQueue t → u.group g = s.group g
  queue : (∀ g ∈ s.armedQueue t, (s.group g).track = t) → u.armedQueue t = [] ∧ ∀ v, v ≠ t → u.armedQueue v = s.armedQueue v
  groupDone : s.armedQueue t ≠ [] → u.flags.get .groupDone = true
  incoming : s.armedQueue t = [] → i ∉ between → (s.track t).onAir ≠ some i →
    (u.slot i).state = .onAir ∧ (u.slot i).start = some startIn ∧ (u.slot i).prompterEnd = none ∧
      (u.slot i).revision = nextRevision (s.slot i).revision ∧ (u.slot i).airing = nextAiring (s.slot i).airing
  outgoing : s.armedQueue t = [] → ∀ o, (s.track t).onAir = some o → o ≠ i → o ∉ between →
    (u.slot o).state = .done ∧ (u.slot o).actual = some (s.completionOf o startIn).actual ∧
      (u.slot o).start = (s.slot o).start ∧ (u.slot o).revision = nextRevision (s.slot o).revision
  passed : s.armedQueue t = [] → ∀ j ∈ between, j ≠ i → (u.slot j).state = .skipped
  orders : s.armedQueue t = [] → u.orders = s.orders
  prompter : s.armedQueue t = [] → i ∉ between → (s.track t).onAir ≠ some i →
    u.prompterTx =
      ((if (s.slot i).state = .ready then [] else ((s.slot i).fields.script.map (fun f => OutFrame.loadScript f t)).toList) ++
        ((s.slot i).fields.script.map (fun f => OutFrame.go f t)).toList ++
        ((u.track t).ready.bind (fun r => (s.slot r).fields.script.map (fun f => OutFrame.loadScript f t))).toList).foldl
        Transmit.push s.prompterTx
  others : s.armedQueue t = [] → ∀ j, j ≠ i → (s.track t).onAir ≠ some j → j ∉ between → (s.slot j).Alike (u.slot j)

/-! ### The apply of a group (R32 to R36) -/

/-- The slot a staged CREATE reserved; none for another edit. -/
def StagedEdit.reserves (e : StagedEdit) : Option Slot :=
  match e.body with
  | .create .. => some e.slot
  | _ => none

/-- The edit names a live item of the group's track by the revision it is compared with, or one made in this apply (R29, R32). -/
def State.Names (s : State) (ref : Reference) (e : StagedEdit) : Prop :=
  e.reserves = none ∧ (s.slot e.slot).isLive = true ∧ (e.slot ∈ ref.exempt ∨ e.revision = some (ref.revision e.slot)) ∧
    ∀ t, ref.track = some t → (s.slot e.slot).track = t

/-- The verdict of the first pass on one edit, in the order of R12 and by its own rule (R13 to R19, R32): the result code of the check
that fails first, or none. -/
structure State.Judges (s : State) (ref : Reference) (e : StagedEdit) (verdict : Option Result) : Prop where
  created : ∀ t a f l, e.body = .create t a f l →
    (s.anchorBad t none (anchorCode a) → verdict = some .range) ∧
    (¬s.anchorBad t none (anchorCode a) →
      (s.keyTaken f.key.toNat none → verdict = some .duplicate) ∧ (¬s.keyTaken f.key.toNat none → verdict = none))
  missing : e.reserves = none → (s.slot e.slot).isLive = false → verdict = some .notFound
  stale : e.reserves = none → (s.slot e.slot).isLive = true → e.slot ∉ ref.exempt → e.revision ≠ some (ref.revision e.slot) →
    verdict = some .stale
  reused : e.reserves = none → (s.slot e.slot).isLive = true → (e.slot ∈ ref.exempt ∨ e.revision = some (ref.revision e.slot)) →
    ∀ t, ref.track = some t → (s.slot e.slot).track ≠ t → verdict = some .range
  airing : s.Names ref e → s.airs e.slot → (∀ p, e.body = .update p → p.floated = some true ∨ p.key ≠ none ∨ p.kind ≠ none) →
    verdict = some .onAir
  updated : s.Names ref e → ∀ p, e.body = .update p →
    (s.airs e.slot → p.floated ≠ some true ∧ p.key = none ∧ p.kind = none) →
    (∀ k, p.key = some k → s.keyTaken k.toNat (some e.slot) → verdict = some .duplicate) ∧
    ((∀ k, p.key = some k → ¬s.keyTaken k.toNat (some e.slot)) → verdict = none)
  moved : s.Names ref e → ¬s.airs e.slot → ∀ a, e.body = .move a →
    (s.anchorBad (s.slot e.slot).track (some e.slot) (anchorCode a) → verdict = some .range) ∧
    (¬s.anchorBad (s.slot e.slot).track (some e.slot) (anchorCode a) → verdict = none)
  restored : s.Names ref e → ¬s.airs e.slot → e.body = .restore →
    ((s.slot e.slot).state = .planned ∨ (s.slot e.slot).state = .ready → verdict = some .state) ∧
    ((s.slot e.slot).state ≠ .planned → (s.slot e.slot).state ≠ .ready → verdict = none)
  passed : s.Names ref e → ¬s.airs e.slot → e.body = .retire ∨ (∃ l, e.body = .cues l) → verdict = none

/-- Cues of item `i` may have been withdrawn or armed, and their channels may have sent others, which leaves every other item its
state, its fields and its counters. -/
structure State.CuesTurned (s u : State) (i : Slot) : Prop where
  aside : s.Aside u
  flags : s.flags.Within u.flags
  groups : u.groups = s.groups
  armed : u.armed = s.armed
  status : u.status = s.status
  readsDone : u.readsDone = s.readsDone
  prompterTx : u.prompterTx = s.prompterTx
  buffer : u.buffer = s.buffer
  others : ∀ j, j ≠ i → (s.slot j).Alike (u.slot j) ∧ (u.slot j).state = (s.slot j).state ∧ (u.slot j).airing = (s.slot j).airing

/-- What an edit does to the item table and the cues, from the state whose watch it has found (R13 to R19): the item's revision advances
once, unless the edit counts as part of the slot's creation (R29). -/
def State.EffectMade (s u : State) (i : Slot) (creation : Bool) : EditBody → Prop
  | .create t a f l =>
    u = (s.setSlot i
        { condition := .live, revision := nextRevision (s.slot i).revision, airing := (s.slot i).airing, track := t, fields := f
          state := .planned, cues := l.map CueSpec.fresh }).setOrder t (insertAfter a i (s.order t))
  | .update p =>
    u = ({ s with prompterTx := u.prompterTx }).setSlot i
        { s.slot i with
          revision := if creation then (s.slot i).revision else nextRevision (s.slot i).revision
          fields := p.apply (s.slot i).fields } ∧
      (∀ f, p.script = some (some f) → (s.track (s.slot i).track).ready = some i → (s.slot i).fields.script ≠ some f →
        u.prompterTx = s.prompterTx.push (.loadScript f (s.slot i).track)) ∧
      ((∀ f, p.script = some (some f) → (s.track (s.slot i).track).ready = some i → (s.slot i).fields.script = some f) →
        u.prompterTx = s.prompterTx)
  | .move a =>
    u = (s.setSlot i
        { s.slot i with revision := if creation then (s.slot i).revision else nextRevision (s.slot i).revision }).setOrder
        (s.slot i).track (insertAfter a i ((s.order (s.slot i).track).filter (fun j => decide (j ≠ i))))
  | .retire =>
    s.CuesTurned u i ∧ u.slot i = { revision := nextRevision (s.slot i).revision, airing := nextAiring (s.slot i).airing } ∧
      u.order (s.slot i).track = (s.order (s.slot i).track).filter (fun j => decide (j ≠ i)) ∧
      (∀ v, v ≠ (s.slot i).track → u.order v = s.order v ∧ u.track v = s.track v) ∧
      u.track (s.slot i).track =
        { s.track (s.slot i).track with
          ready := if (s.track (s.slot i).track).ready = some i then none else (s.track (s.slot i).track).ready } ∧
      (s.noneWaiting i → s.QuietBut u i) ∧
      (s.QueuesIdle → ∃ a, s.Abandoned a i (fun _ => true) ∧
        u = { a.setSlot i (u.slot i) with orders := u.orders, tracks := u.tracks })
  | .restore =>
    s.CuesTurned u i ∧ u.orders = s.orders ∧ u.tracks = s.tracks ∧
      u.slot i = { s.slot i with
        revision := nextRevision (s.slot i).revision, state := .planned, start := none, actual := none, prompterEnd := none
        cueFault := false, cues := (s.slot i).cues.map Cue.pend } ∧
      (s.noneWaiting i → s.QuietBut u i) ∧
      (s.QueuesIdle → ∃ a, s.Abandoned a i (fun _ => true) ∧ u = a.setSlot i (u.slot i))
  | .cues l =>
    s.CuesTurned u i ∧ u.orders = s.orders ∧ u.tracks = s.tracks ∧
      u.slot i = { s.slot i with
        revision := if creation then (s.slot i).revision else nextRevision (s.slot i).revision
        airing := if creation then (s.slot i).airing else nextAiring (s.slot i).airing
        cues := (u.slot i).cues, cueFault := (u.slot i).cueFault } ∧
      (u.slot i).cues.map Cue.spec = l ∧
      ((s.track (s.slot i).track).ready ≠ some i →
        (u.slot i).cues = l.map CueSpec.fresh ∧ (u.slot i).cueFault = false ∧ (s.noneWaiting i → s.QuietBut u i)) ∧
      (s.QueuesIdle → ∃ a x, s.Abandoned a i (fun _ => true) ∧
        x = a.setSlot i { u.slot i with cues := l.map CueSpec.fresh, cueFault := false } ∧
        ((s.track (s.slot i).track).ready ≠ some i → u = x) ∧
        ((s.track (s.slot i).track).ready = some i → u = x.armPhase .ready s.sfc i))

/-- An edit carried out with the effects of its direct rule (R33). The hard-ins it finds watched stay watched as they were, but for those
of items no longer READY or eligible (R14, R52; notes/assumptions/16.md). -/
def State.EditMade (s u : State) (i : Slot) (creation : Bool) (b : EditBody) : Prop := s.keepWatch.EffectMade u i creation b

/-- A list of staged edits carried out one after another, each having passed its checks against the table as the edits before it
left it (R32, R33). -/
inductive State.Carried (ref : Reference) : State → List StagedEdit → State → Prop
  | nil (s : State) : State.Carried ref s [] s
  | cons {s v u : State} {e : StagedEdit} {l : List StagedEdit} : s.Judges ref e none →
    s.EditMade v e.slot (decide (e.slot ∈ ref.exempt)) e.body → State.Carried ref v l u → State.Carried ref s (e :: l) u

/-- What the edits of a group are compared with: an item that the take changed, from `pre` to `post`, and no earlier group has since,
by the revision it held before the take, any other by its revision as the apply begins, and a slot the group reserved by none
(R29, R32). Outside a take `pre` and `post` are the table as it stands. -/
structure Reference.For (ref : Reference) (s : State) (x : Group) (pre post : Bank 512 Item) : Prop where
  taken : ∀ i, (s.slot i).revision = (post.get i).revision → ref.revision i = (pre.get i).revision
  changed : ∀ i, (s.slot i).revision ≠ (post.get i).revision → ref.revision i = (s.slot i).revision
  exempt : ref.exempt = x.reserved
  track : ref.track = some x.track

/-- A group has left its queue and is IDLE and empty with a last result, and GROUP_DONE is raised (R33, R35). -/
structure State.GroupEnded (s u : State) (g : GroupNo) (last : LastResult) : Prop where
  group : u.group g = { s.group g with state := .idle, edits := [], reserved := [], reservedEntries := 0, last := last }
  others : ∀ h, h ≠ g → u.group h = s.group h
  queue : u.armedQueue (s.group g).track = (s.armedQueue (s.group g).track).filter (fun h => decide (h ≠ g))
  otherQueue : ∀ v, v ≠ (s.group g).track → u.armedQueue v = s.armedQueue v
  rest : u = { s with groups := u.groups, armed := u.armed, flags := s.flags.put .groupDone }

/-- A group has been applied: every edit carried out and the result APPLIED, or, at the first edit that fails, its cause and index and
nothing else changed but that the reserved slots are free with their kept counters (R32, R33, R35). -/
inductive State.GroupApplied (pre post : Bank 512 Item) (s u : State) (g : GroupNo) : Prop
  | applied (ref : Reference) (v : State) (href : ref.For s (s.group g) pre post) (carried : State.Carried ref s (s.group g).edits v)
    (ended : v.GroupEnded u g .applied)
  | rejected (ref : Reference) (before after : List StagedEdit) (e : StagedEdit) (v w : State) (cause : Result)
    (href : ref.For s (s.group g) pre post) (edits : (s.group g).edits = before ++ e :: after)
    (carried : State.Carried ref s before v) (judged : v.Judges ref e (some cause))
    (freed : ∀ i, i ∈ (s.group g).reserved → w.slot i = { revision := (s.slot i).revision, airing := (s.slot i).airing })
    (kept : ∀ i, i ∉ (s.group g).reserved → w.slot i = s.slot i) (rest : w = { s with slots := w.slots })
    (ended : w.GroupEnded u g (.rejected cause before.length))

/-- The groups of an armed queue applied one after another, from its head (R36). -/
inductive State.QueueApplied (pre post : Bank 512 Item) : State → List GroupNo → State → Prop
  | nil (s : State) : State.QueueApplied pre post s [] s
  | cons {s v u : State} {g : GroupNo} {l : List GroupNo} : State.GroupApplied pre post s v g →
    State.QueueApplied pre post v l u → State.QueueApplied pre post s (g :: l) u

/-- The frame work of blocks carried out one after another: of each that has it to do, once (R62). -/
inductive State.WorkCarried : State → List FrameWork → State → Prop
  | nil (s : State) : State.WorkCarried s [] s
  | done {s u : State} {w : FrameWork} {l : List FrameWork} : w ∈ s.due →
    State.WorkCarried ((s.setDue (s.due.erase w)).runWork w) l u → State.WorkCarried s (w :: l) u
  | none {s u : State} {w : FrameWork} {l : List FrameWork} : w ∉ s.due → State.WorkCarried s l u → State.WorkCarried s (w :: l) u

/-- The presenter unit has learnt from every completion in its list, from its head (R90). -/
inductive State.Learnt : State → State → Prop
  | nil {s : State} : s.readsDone = [] → State.Learnt s s
  | cons {s v u : State} : s.readsDone ≠ [] → exec .presenterCompletion s = .next v → State.Learnt v u → State.Learnt s u

/-- A track's sequencer is given the track as it stands to look at: its take delay, its host hold, whether the item on air has auto yes, and
the hard-ins of the items READY or eligible (R41, R42, R51, R52). -/
structure State.LooksAt (s : State) (t : Track) (x : Look) : Prop where
  takeDelay : x.takeDelay = (s.track t).takeDelay
  hostHold : x.hostHold = (s.track t).hostHold
  auto : x.auto = true ↔ ∃ o, (s.track t).onAir = some o ∧ (s.slot o).fields.auto = true
  hardIns : ∀ i h, ⟨i, h⟩ ∈ x.hardIns ↔ i ∈ s.candidates t ∧ (s.slot i).fields.hardIn = some h

/-- The hard-in watch of a track sees item `i` by hard-in `h`: it was given so at the frame event, and the item is still READY or eligible
(R14, R52, R60). -/
def State.Watches (s : State) (t : Track) (i : Slot) (h : Frame) : Prop := i ∈ s.candidates t ∧ s.watchedHardIn t i = some h

/-- A frame is counted: the SFC is one on, the time since the last frame event starts again, the panel pins are sampled, every block has
its frame work to do, and each sequencer looks at its track as it stands (R41, R42, R51, R52, R57, R62). -/
structure State.Counts (s u : State) (e : FrameEvent) : Prop where
  due : (∀ w, w ∈ u.due) ∧ u.due.Nodup
  pins : ∀ i, u.input i = { s.input i with raw := e.raw.getLsbD i.val }
  looks : ∀ t, s.LooksAt t (u.look t)
  rest : u = { s with
    sfc := s.sfc + 1, counted := s.sfc + 1, sinceFrame := 0, panel := u.panel, due := u.due, cut := ⟨false, false⟩, looks := u.looks }

/-- A frame event has been made: the SFC is one on, the time since the last frame event starts again, the panel pins are sampled,
and every block's frame work is done or outstanding (R57, R62). The work left over from the last frame event has been done first, in the
model's order, and every completion left learnt from (DESIGN CHOICE: notes/assumptions/3.md); then the frame is counted, and the work
that `e` names is done, in its order. What no block's frame work reaches is as it was; with nothing left over from the last frame event
and no work done in this one's own step, only the time base and the pins have changed. -/
structure State.FrameCounted (s u : State) (e : FrameEvent) : Prop where
  sfc : u.sfc = s.sfc + 1
  counted : u.counted = s.sfc + 1
  sinceFrame : u.sinceFrame = 0
  due : ∀ w, w ∈ u.due ↔ w ∉ e.now
  raw : ∀ i, (u.input i).raw = e.raw.getLsbD i.val
  flags : s.flags.Within u.flags
  buffer : u.buffer = s.buffer
  sdoStatus : u.sdoStatus = s.sdoStatus
  sdo : u.sdo = s.sdo
  mask : u.mask = s.mask
  debounce : u.debounce = s.debounce
  frameRate : u.frameRate = s.frameRate
  routes : u.routes = s.routes
  isGlobal : u.isGlobal = s.isGlobal
  defaultRoute : u.defaultRoute = s.defaultRoute
  deviceRx : u.deviceRx = s.deviceRx
  prompterRx : u.prompterRx = s.prompterRx
  held : u.held = s.held
  pending : u.pending = s.pending
  cut : e.now = [] → u.cut = ⟨false, false⟩
  works : ∃ x v w c : State,
    x = { s with
      reference := u.reference, qualifying := u.qualifying, sinceFrame := x.sinceFrame, sinceTimer := u.sinceTimer
      sincePulse := u.sincePulse, lastTick := u.lastTick
      flags := if u.reference = s.reference then s.flags else s.flags.put .reference } ∧
    x.WorkCarried allWork v ∧ v.Learnt w ∧ w.Counts c e ∧ c.WorkCarried e.now u
  alone : s.due = [] → s.readsDone = [] → e.now = [] →
    u = { s with
      sfc := u.sfc, reference := u.reference, qualifying := u.qualifying, sinceFrame := u.sinceFrame
      sinceTimer := u.sinceTimer, sincePulse := u.sincePulse, lastTick := u.lastTick, panel := u.panel, flags := u.flags
      due := u.due, cut := u.cut, counted := u.counted, looks := u.looks } ∧
    (∀ t, s.LooksAt t (u.look t)) ∧
    ∀ i, (u.input i).active = (s.input i).active ∧ (u.input i).count = (s.input i).count

/-- The reference, the qualifying count, the time since the flywheel timer's start and since the last pulse, and whether the last
frame event was a tick. -/
def State.timeBase (s : State) : RefState × Nat × Nat × Nat × Bool :=
  (s.reference, s.qualifying, s.sinceTimer, s.sincePulse, s.lastTick)

/-! ### Cues and channels -/

/-- A cue has become FAILED with a cause: its item's cue fault is yes and CUE_FAIL is raised, and nothing else has changed (R93). -/
structure State.FailedCue (s u : State) (i : Slot) (k : Nat) (cause : FailCause) : Prop where
  cue : ∀ q, s.cue? i k = some q → u.cue? i k = some { q with state := .failed, failCause := some cause }
  otherCues : ∀ l, l ≠ k → u.cue? i l = s.cue? i l
  item : u.slot i = { s.slot i with cues := (u.slot i).cues, cueFault := true }
  others : ∀ j, j ≠ i → u.slot j = s.slot j
  rest : u = { s with slots := u.slots, flags := s.flags.put .cueFail }

/-- One cue's state has changed, and nothing else of its item (R92). -/
structure State.MovedCue (s u : State) (i : Slot) (k : Nat) (x : CueState) : Prop where
  cue : ∀ q, s.cue? i k = some q → u.cue? i k = some { q with state := x }
  otherCues : ∀ l, l ≠ k → u.cue? i l = s.cue? i l
  item : u.slot i = { s.slot i with cues := (u.slot i).cues }
  others : ∀ j, j ≠ i → u.slot j = s.slot j

/-- A grant of the head of a channel's queue that is not done at its send: the cue is SENT, the tag advances, the slot holds the command,
the channel is BUSY and a COMMAND frame goes to its link (R121). The mark of a count that begins ahead of the channel's own frame work is
the model's (notes/assumptions/3.md). -/
structure State.SentFrom (s u : State) (c : Chan) (q : Queued) (queue : List Queued) : Prop where
  cue : s.MovedCue u q.cue.slot q.cue.index .sent
  channel : u.channel c = { s.channel c with
    queue := queue, tag := (s.channel c).tag + 1, state := .busy, begun := decide (.channel c ∈ s.due)
    command := some ⟨q.cue, q.track, q.action, q.param, q.mode, q.dwell, q.answerTimeout, q.guard, (s.channel c).tag + 1,
      s.sfc, 0⟩ }
  otherChannels : ∀ d, d ≠ c → u.channel d = s.channel d
  link : u.tx (.device c) = (s.tx (.device c)).push (.command ((s.channel c).tag + 1) q.action q.param q.track)
  otherLinks : ∀ k, k ≠ .device c → u.tx k = s.tx k
  rest : u = { s with slots := u.slots, channels := u.channels, deviceTx := u.deviceTx }

/-- The cue is not done at its send: mode ANSWER, or a dwell that is not 0 (R121 step 6). -/
def Queued.runs (q : Queued) : Prop := q.mode = .answer ∨ q.dwell ≠ 0

/-- The command in a channel's slot has ended: its completion is handed, and its guard runs, or the channel is READY (R125). -/
def State.commandEnded (s : State) (c : Chan) (k : Command) (o : CueOutcome) : State :=
  (s.setChannel c { s.channel c with
    command := none, state := if k.guard = 0 then .ready else .guard
    guard := if k.guard = 0 then (s.channel c).guard else k.guard
    begun := if k.guard = 0 then (s.channel c).begun else decide (.channel c ∈ s.due) }).setCuesDone (s.cuesDone ++ [⟨k.cue, o⟩])

/-- The arbiter of a channel has acted on its queue: nothing where the channel is not READY or has nothing queued; otherwise the head is
sent, and where it is done at its send the command ends at once, and the arbiter acts again (R121, R125). -/
inductive State.Granted (c : Chan) : State → State → Prop
  | none {s : State} : (s.channel c).state ≠ .ready ∨ (s.channel c).queue = [] → State.Granted c s s
  | runs {s u : State} {q : Queued} {l : List Queued} : (s.channel c).state = .ready → (s.channel c).queue = q :: l → q.runs →
    s.SentFrom u c q l → State.Granted c s u
  | done {s v u : State} {q : Queued} {l : List Queued} {k : Command} : (s.channel c).state = .ready →
    (s.channel c).queue = q :: l → ¬q.runs → s.SentFrom v c q l → (v.channel c).command = some k →
    State.Granted c (v.commandEnded c k .done) u → State.Granted c s u

/-- What follows the end of a command: with a guard, or nothing queued, no more; otherwise the head of the queue is sent, and the next
after one that is done at its send with guard 0 (R121, R125). -/
structure State.EndsCommand (s u : State) (c : Chan) (k : Command) (o : CueOutcome) : Prop where
  rests : k.guard ≠ 0 ∨ (s.channel c).queue = [] → u = s.commandEnded c k o
  grants : ∀ q l, k.guard = 0 → (s.channel c).queue = q :: l → q.runs → (s.commandEnded c k o).SentFrom u c q l
  chain : State.Granted c (s.commandEnded c k o) u

/-- A fault has been entered in the mode in force (R129 to R132): the silent count is 0; but in IGNORE the flag and the cause are set
and CHANNEL_FAULT is raised; in LATCH and RETRY the command in the slot ends FAILED and no guard runs; LATCH leaves the channel
FAULTED and fails its queue, RETRY leaves it RECOVERING for the retry interval; REPORT and IGNORE leave its state. -/
structure State.FaultEntered (s u : State) (c : Chan) (cause : FaultCause) (failure : FailCause) : Prop where
  others : ∀ d, d ≠ c → u.channel d = s.channel d
  ignore : (s.channel c).faultMode = .ignore → u = s.setChannel c { s.channel c with silent := 0 }
  report : (s.channel c).faultMode = .report →
    u = (s.setChannel c { s.channel c with silent := 0, faultFlag := true, faultCause := some cause }).raise .channelFault
  retry : (s.channel c).faultMode = .retry →
    u = ((s.setChannel c { s.channel c with
      silent := 0, faultFlag := true, faultCause := some cause, command := none, guard := 0, state := .recovering
      recovery := (s.channel c).retryInterval, begun := decide (.channel c ∈ s.due) }).setCuesDone
        (s.cuesDone ++ ((s.channel c).command.map (fun k => ⟨k.cue, .failed failure⟩)).toList)).raise .channelFault
  latch : (s.channel c).faultMode = .latch →
    u.channel c = { s.channel c with
      silent := 0, faultFlag := true, faultCause := some cause, command := none, guard := 0, state := .faulted, queue := [] } ∧
    u.cuesDone = s.cuesDone ++ ((s.channel c).command.map (fun k => ⟨k.cue, .failed failure⟩)).toList ∧
    u.flags.get .channelFault = true ∧
    u = { s with slots := u.slots, channels := u.channels, cuesDone := u.cuesDone, flags := u.flags } ∧
    (∀ q ∈ (s.channel c).queue, ∀ z, u.cue? q.cue.slot q.cue.index = some z →
      z.state = .failed ∧ z.failCause = some .channelFault ∧ (u.slot q.cue.slot).cueFault = true) ∧
    ((s.channel c).queue = [] → u.slots = s.slots)

/-- Step 1 of a channel's frame work: the queued cues past their tolerance have left the queue, and each is FAILED LATE, with its
item's cue fault and CUE_FAIL (R93, R123). Nothing else has changed. -/
structure State.QueueAged (s u : State) (c : Chan) : Prop where
  channel : u.channel c = { s.channel c with
    queue := (s.channel c).queue.filter (fun q => decide (frameDiff s.sfc q.fire ≤ q.tolerance)) }
  otherChannels : ∀ d, d ≠ c → u.channel d = s.channel d
  late : ∀ q ∈ (s.channel c).queue, (q.tolerance : Int) < frameDiff s.sfc q.fire →
    (u.slot q.cue.slot).cueFault = true ∧ ∀ z, s.cue? q.cue.slot q.cue.index = some z →
      u.cue? q.cue.slot q.cue.index = some { z with state := .failed, failCause := some .late }
  otherCues : ∀ i k, (∀ q ∈ (s.channel c).queue, (q.tolerance : Int) < frameDiff s.sfc q.fire →
    q.cue.slot ≠ i ∨ q.cue.index ≠ k) → u.cue? i k = s.cue? i k
  items : ∀ i, u.slot i = { s.slot i with cues := (u.slot i).cues, cueFault := (u.slot i).cueFault }
  others : ∀ i, (∀ q ∈ (s.channel c).queue, (q.tolerance : Int) < frameDiff s.sfc q.fire → q.cue.slot ≠ i) → u.slot i = s.slot i
  flags : u.flags =
    if ∃ q ∈ (s.channel c).queue, (q.tolerance : Int) < frameDiff s.sfc q.fire then s.flags.put .cueFail else s.flags
  rest : u = { s with slots := u.slots, channels := u.channels, flags := u.flags }

/-- Step 2 in BUSY: the busy count is one on, and where it reaches the dwell or the answer timeout the command has ended, DONE, or
FAILED TIMEOUT by the fault mode: in LATCH and RETRY by the fault entry itself, in REPORT and IGNORE with its guard and before it
(R122, R124, R125). -/
structure State.SlotCounted (s u : State) (c : Chan) : Prop where
  empty : (s.channel c).command = none → u = s
  counts : ∀ k, (s.channel c).command = some k → (k.mode ≠ .answer → k.busy + 1 < k.dwell) →
    (k.mode = .answer → k.busy + 1 < k.answerTimeout) →
    u = s.setChannel c { s.channel c with command := some { k with busy := k.busy + 1 } }
  dwell : ∀ k, (s.channel c).command = some k → k.mode ≠ .answer → k.dwell ≤ k.busy + 1 → s.EndsCommand u c k .done
  stops : ∀ k, (s.channel c).command = some k → k.mode = .answer → k.answerTimeout ≤ k.busy + 1 →
    (s.channel c).faultMode = .latch ∨ (s.channel c).faultMode = .retry → s.FaultEntered u c .timeout .timeout
  goesOn : ∀ k, (s.channel c).command = some k → k.mode = .answer → k.answerTimeout ≤ k.busy + 1 →
    (s.channel c).faultMode = .report ∨ (s.channel c).faultMode = .ignore →
    ∃ v, s.EndsCommand v c k (.failed .timeout) ∧ v.FaultEntered u c .timeout .timeout

/-- Step 6: in READY, BUSY and GUARD the silent count is one on, up to 1,023, and at the limit a SILENT fault has been entered (R128). -/
structure State.SilenceCounted (s u : State) (c : Chan) : Prop where
  uncounted : (s.channel c).state ≠ .ready → (s.channel c).state ≠ .busy → (s.channel c).state ≠ .guard → u = s
  counts : (s.channel c).state = .ready ∨ (s.channel c).state = .busy ∨ (s.channel c).state = .guard →
    (s.channel c).silentLimit = 0 ∨ min 1023 ((s.channel c).silent + 1) < (s.channel c).silentLimit →
    u = s.setChannel c { s.channel c with silent := min 1023 ((s.channel c).silent + 1) }
  faults : (s.channel c).state = .ready ∨ (s.channel c).state = .busy ∨ (s.channel c).state = .guard →
    (s.channel c).silentLimit ≠ 0 → (s.channel c).silentLimit ≤ min 1023 ((s.channel c).silent + 1) →
    s.FaultEntered u c .silent .channelFault

/-- Step 7: in READY, with a poll interval, the poll count is one on, and at the interval a POLL goes out and the count is 0 (R127). -/
structure State.PollCounted (s u : State) (c : Chan) : Prop where
  none : (s.channel c).state ≠ .ready ∨ (s.channel c).pollInterval = 0 → u = s
  counts : (s.channel c).state = .ready → (s.channel c).poll + 1 < (s.channel c).pollInterval →
    u = s.setChannel c { s.channel c with poll := (s.channel c).poll + 1 }
  polls : (s.channel c).state = .ready → (s.channel c).pollInterval ≠ 0 → (s.channel c).pollInterval ≤ (s.channel c).poll + 1 →
    u = (s.setChannel c { s.channel c with poll := 0 }).emit (.device c) .poll

/-- A channel's frame work has been carried out (R122): none in OFFLINE, the ageing alone in FAULTED, and otherwise the seven steps in
their order, of which steps 2, 3 and 4 count only what ran when the frame event was made. That a count begun ahead of the frame work
carries a mark, which the frame work takes away, is the model's (notes/assumptions/3.md). -/
inductive State.ChannelWorked (s u : State) (c : Chan) : Prop
  | offline (state : (s.channel c).state = .offline) (unmarked : u = s.setChannel c { s.channel c with begun := false })
  | faulted (state : (s.channel c).state = .faulted)
    (ages : (s.setChannel c { s.channel c with begun := false }).QueueAged u c)
  | works (aged slot rest granted silence : State) (state : (s.channel c).state ≠ .offline ∧ (s.channel c).state ≠ .faulted)
    (step1 : (s.setChannel c { s.channel c with begun := false }).QueueAged aged c)
    (step2 : if (s.channel c).state = .busy ∧ (s.channel c).begun = false then aged.SlotCounted slot c else slot = aged)
    (steps3and4 : rest =
      if (s.channel c).begun = true then slot
      else if (s.channel c).state = .guard then
        slot.setChannel c { slot.channel c with
          guard := (s.channel c).guard - 1, state := if (s.channel c).guard ≤ 1 then .ready else .guard }
      else if (s.channel c).state = .recovering then
        slot.setChannel c { slot.channel c with
          recovery := (s.channel c).recovery - 1, state := if (s.channel c).recovery ≤ 1 then .ready else .recovering }
      else slot)
    (step5 : State.Granted c rest granted)
    (step6 : granted.SilenceCounted silence c)
    (step7 : silence.PollCounted u c)

/-- Delivery fields as a request gives those it names by bits `first` to `first + 6`, held to their ranges, and as they stood
otherwise (R107, R110, R112). -/
structure Delivery.GivenBy (x held : Delivery) (d : RawDelivery) (fields first : Nat) : Prop where
  channel : if fields.testBit first then x.channel.val = d.channel else x.channel = held.channel
  preroll : x.preroll = if fields.testBit (first + 1) then min d.preroll 15 else held.preroll
  mode : if fields.testBit (first + 2) then modeOf d.mode = some x.mode else x.mode = held.mode
  dwell : x.dwell = if fields.testBit (first + 3) then min d.dwell 255 else held.dwell
  answerTimeout : x.answerTimeout = if fields.testBit (first + 4) then max 1 (min d.answerTimeout 255) else held.answerTimeout
  guard : x.guard = if fields.testBit (first + 5) then min d.guard 15 else held.guard
  tolerance : x.tolerance = if fields.testBit (first + 6) then min d.tolerance 255 else held.tolerance

/-- A channel above 11 or a completion mode code that is not defined (R110, R112). -/
def deliveryBad (d : RawDelivery) (fields first : Nat) : Prop :=
  (fields.testBit first = true ∧ 12 ≤ d.channel) ∨ (fields.testBit (first + 2) = true ∧ 3 ≤ d.mode)

/-- A delivery field that is stored at its nearest limit (R112). -/
abbrev deliveryClamps (d : RawDelivery) (fields first : Nat) : Prop :=
  (fields.testBit (first + 1) = true ∧ 15 < d.preroll) ∨ (fields.testBit (first + 3) = true ∧ 255 < d.dwell) ∨
    (fields.testBit (first + 4) = true ∧ (d.answerTimeout = 0 ∨ 255 < d.answerTimeout)) ∨
    (fields.testBit (first + 5) = true ∧ 15 < d.guard) ∨ (fields.testBit (first + 6) = true ∧ 255 < d.tolerance)

/-- The entry matches the target code: they hold the same bit wherever the mask holds a 0 (R108). -/
def Route.hits (r : Route) (target : Word16) : Prop :=
  ∀ n, n < 16 → r.mask.getLsbD n = false → target.getLsbD n = r.base.getLsbD n

/-- The entry resolves a cue: enabled, matching, and permitting the track and the action (R109). -/
def Route.serves (r : Route) (target : Word16) (a : Action) (t : Track) : Prop :=
  r.enabled = true ∧ r.hits target ∧ r.tracks.getLsbD (trackCode t) = true ∧ r.actions.getLsbD a.code = true

/-! ### Ranges that every command keeps -/

/-- The lit and dark counts of a pattern lie within the ranges of R79. -/
def Pattern.InRange (x : Pattern) : Prop := x.lit ≤ 255 ∧ x.dark ≤ 255

/-- A presenter record lies within the ranges of R79. -/
structure Presenter.InRange (x : Presenter) : Prop where
  rateLow : 64 ≤ x.rate
  rateHigh : x.rate ≤ 16383
  slowLow : 1 ≤ x.slowShift
  slowHigh : x.slowShift ≤ 7
  fast : x.fastShift ≤ x.slowShift
  fastBound : x.fastBound ≤ 16383
  haltBand : x.haltBand ≤ 16383
  minWordsLow : 1 ≤ x.minWords
  minWordsHigh : x.minWords ≤ 4095
  outliers : x.outliers ≤ 2
  wrap : x.wrap ≤ 65535
  standby : x.standby.InRange
  onAir : x.onAir.InRange
  wrapping : x.wrapping.InRange

/-- A track's configuration and lockout count lie within the ranges of R40 and R41. -/
structure TrackRec.InRange (x : TrackRec) : Prop where
  takeDelay : x.takeDelay ≤ 15
  lockout : x.lockout ≤ 255
  band : x.band ≤ 65535
  hysteresis : x.hysteresis ≤ x.band
  lockoutCount : x.lockoutCount ≤ x.lockout

/-- The delivery fields of a route lie within the ranges of R107. -/
structure Delivery.InRange (x : Delivery) : Prop where
  preroll : x.preroll ≤ 15
  dwell : x.dwell ≤ 255
  timeoutLow : 1 ≤ x.answerTimeout
  timeoutHigh : x.answerTimeout ≤ 255
  guard : x.guard ≤ 15
  tolerance : x.tolerance ≤ 255

/-- The words and planned figures of an item lie within the ranges of R3. -/
def Fields.InRange (x : Fields) : Prop := x.words ≤ 4095 ∧ x.planned ≤ 1048575

/-- An item's figures lie within the ranges of R3, R47 and R91: its words, planned and actual, the length of its cue list, and the
lateness and the delivery copy of each cue. -/
structure Item.InRange (x : Item) : Prop where
  fields : x.fields.InRange
  actual : ∀ a, x.actual = some a → a ≤ 2147483647
  list : x.cues.length ≤ 16
  lateness : ∀ q ∈ x.cues, q.lateness ≤ 255
  copies : ∀ q ∈ x.cues, ∀ r, q.resolved = some r → r.delivery.InRange

/-- The figures of an edit lie within their ranges: those a patch gives, and the length of a list (R3, R12, R24). -/
def EditBody.InRange : EditBody → Prop
  | .create _ _ f l => f.InRange ∧ l.length ≤ 16
  | .update p => (∀ w, p.words = some w → w ≤ 4095) ∧ ∀ n, p.planned = some n → n ≤ 1048575
  | .cues l => l.length ≤ 16
  | _ => True

/-- A channel's settings and counts lie within the ranges of R117, its wait queue holds at most 8 cues, its command slot is
filled exactly in BUSY, and its kind is NONE exactly when it is OFFLINE (R118, R121, R130). -/
structure Channel.InRange (x : Channel) : Prop where
  pollInterval : x.pollInterval ≤ 255
  silentLimit : x.silentLimit ≤ 1023
  retryLow : 1 ≤ x.retryInterval
  retryHigh : x.retryInterval ≤ 1023
  queue : x.queue.length ≤ 8
  silent : x.silent ≤ 1023
  slot : x.command.isSome = true ↔ x.state = .busy
  offline : x.kind = .none ↔ x.state = .offline
  unserved : x.kind = .none → x.queue = []
  latched : x.state = .faulted → x.faultMode = .latch → x.queue = []

/-- A channel's other counts lie within the ranges of R117, as do the figures of the cues it holds (R107), and its wait queue is empty
while it is READY (R118). -/
structure Channel.CountsInRange (x : Channel) : Prop where
  poll : x.poll ≤ 255
  guard : x.guard ≤ 15
  recovery : x.recovery ≤ 1023
  idle : x.state = .ready → x.queue = []
  queued : ∀ q ∈ x.queue, q.dwell ≤ 255 ∧ 1 ≤ q.answerTimeout ∧ q.answerTimeout ≤ 255 ∧ q.guard ≤ 15 ∧ q.tolerance ≤ 255
  command : ∀ k, x.command = some k → k.dwell ≤ 255 ∧ 1 ≤ k.answerTimeout ∧ k.answerTimeout ≤ 255 ∧ k.guard ≤ 15

/-- The ranges that every command keeps. -/
structure State.InRange (s : State) : Prop where
  items : ∀ i, (s.slot i).InRange
  staged : ∀ g, ∀ e ∈ (s.group g).edits, e.body.InRange
  presenters : ∀ p, (s.presenter p).InRange
  tracks : ∀ t, (s.track t).InRange
  looks : ∀ t, (s.look t).takeDelay ≤ 15
  routes : ∀ n, (s.route n).delivery.InRange
  defaultRoute : s.defaultRoute.delivery.InRange
  channels : ∀ c, (s.channel c).InRange
  counts : ∀ c, (s.channel c).CountsInRange
  lights : ∀ p, (s.light p).phase ≤ 509
  transmit : ∀ k, (s.tx k).queue.length ≤ 64
  idleLink : ∀ k, (s.tx k).sending = none → (s.tx k).queue = []
  debounceLow : 1 ≤ s.debounce
  debounceHigh : s.debounce ≤ 15
  panel : ∀ i, (s.input i).count ≤ 14
  qualifying : s.qualifying ≤ 3
  locked : s.reference = .locked → s.qualifying = 0
  global : s.isGlobal = true → (s.route 0).mask = 0xFFFF#16

/-- The item table, the groups and the tracks hold together. Each track's order is the live items of that track without repetition (R9);
every staged slot is reserved by exactly one group, and every reserved slot is staged (R1); a group has reserved one slot for each CREATE
it has staged, of its own track and with the list of that CREATE, its reserved entries are those its edits drew, and an IDLE group holds
nothing (R24, R25); neither pool is overdrawn (R11, R30). A track's armed queue is the ARMED groups of that track, each once, and there is
none while nothing is on air (R34, R46). The ON_AIR pointer of a track names the one live item of it in state ON_AIR, the READY pointer
the one in state READY, which is the first candidate (R40, R44). -/
structure State.Sound (s : State) : Prop where
  nodup : ∀ t, (s.order t).Nodup
  orders : ∀ t i, i ∈ s.order t ↔ (s.slot i).condition = .live ∧ (s.slot i).track = t
  staged : ∀ i, (s.slot i).condition = .staged ↔ ∃ g, i ∈ (s.group g).reserved
  reservedOnce : ∀ g, (s.group g).reserved.Nodup
  reservedApart : ∀ g h i, i ∈ (s.group g).reserved → i ∈ (s.group h).reserved → g = h
  creates : ∀ g, (s.group g).edits.filterMap StagedEdit.reserves = (s.group g).reserved
  lists : ∀ g, ∀ e ∈ (s.group g).edits, ∀ t a f l, e.body = .create t a f l → (s.slot e.slot).cues.length = l.length
  createdFor : ∀ g, ∀ e ∈ (s.group g).edits, ∀ t a f l, e.body = .create t a f l → t = (s.group g).track
  drawn : ∀ g, (s.group g).reservedEntries = ((s.group g).edits.map (fun e => e.body.newEntries)).sum
  idle : ∀ g, (s.group g).state = .idle → (s.group g).edits = []
  entries : s.entriesInUse ≤ 2048
  staging : s.stagingInUse ≤ 128
  queueOnce : ∀ t, (s.armedQueue t).Nodup
  queues : ∀ t g, g ∈ s.armedQueue t ↔ (s.group g).state = .armed ∧ (s.group g).track = t
  boundary : ∀ t, (s.track t).onAir = none → s.armedQueue t = []
  onAir : ∀ t i, (s.track t).onAir = some i ↔ (s.slot i).condition = .live ∧ (s.slot i).track = t ∧ (s.slot i).state = .onAir
  ready : ∀ t i, (s.track t).ready = some i ↔ (s.slot i).condition = .live ∧ (s.slot i).track = t ∧ (s.slot i).state = .ready
  first : ∀ t, (s.track t).ready = (s.candidates t).head?

/-- No two live items hold the same story key (R8). -/
def State.KeysDistinct (s : State) : Prop :=
  ∀ i j, (s.slot i).isLive = true → (s.slot j).isLive = true → (s.slot i).fields.key = (s.slot j).fields.key → i = j

end Sys2Proof.Machine
end

