-- ==== Sys2Proof/Certificates/Slice0/Obligations.lean ====
section
/-! DEFINITION. The statements for the provers, chapter by chapter. Each docstring cites the rules of spec/ it formalises. -/

open Sys2Proof Sys2Proof.Machine

/-! ### The queue, the port and the resets (chapter 10) -/

/-- A step with a command at the front of the queue carries that command out on the state with the rest of the queue. -/
def Obligations.StepRunsFrontCommand : Prop :=
  ∀ (c : Instr) (s : State), step { s with pending := c :: s.pending } = exec c s

/-- R150, R152, R155. Every request that can reach a part out of reset is carried out: the summary status is shifted out, and a fill
byte for each byte after the length byte. With the response buffer in use it is dropped, the busy bit set, and nothing else changes.
With the buffer EMPTY it leaves exactly one answer in the buffer, and unless that answer is OK or CLAMPED its body is empty and
nothing else has changed. -/
def Obligations.RequestIsDroppedOrAnswered : Prop :=
  ∀ (c : Instr) (s : State), c.isRequest = true → c.wellFormed = true → s.held = false →
    (s.buffer ≠ .empty →
      exec c s = .next { s with sdoStatus := s.summary, sdo := List.replicate c.writeLength 0 } ∧ s.summary.getLsbD 0 = true) ∧
    (s.buffer = .empty →
      ∃ t a, exec c s = .next t ∧ t.buffer = .ready a ∧ t.rdyActive = true ∧ t.sdoStatus = s.summary ∧
        t.sdo = List.replicate c.writeLength 0 ∧
        (a.result = .ok ∨ a.result = .clamped ∨ t = s.answeredWith c.writeLength a.result .empty))

/-- R160, R161. Power-on and RST# hold the part in reset with RDY, ATTN# and every light inactive and nothing on any link; no other
request, transaction, pulse, panel sample or link frame then changes anything; the end of the hold leaves every block at its reset
values with RESET_SEEN set; PART.RESET does the same at once but for its own OK answer and what its own transaction shifted out, and
the summary status then shows ATTN pending, RESET_SEEN, FLYWHEEL and busy. That the registers take their reset values already while
the part is held is the model's reading (notes/assumptions/12.md). -/
def Obligations.ResetsReturnThePart : Prop :=
  ∀ s : State,
    (∀ c ∈ [Instr.powerOn, Instr.rstAssert],
      ∃ t, exec c s = .next t ∧ t.held = true ∧ t.rdyActive = false ∧ t.attnActive = false ∧ (∀ p, (t.light p).lit = false) ∧
        (∀ k, t.tx k = ⟨none, []⟩) ∧ (∀ k, t.rx k = .hunting) ∧
        exec .rstRelease t = .next { State.reset with pending := s.pending }) ∧
    (∀ c : Instr, s.held = true → c ≠ .powerOn → c ≠ .rstAssert → c ≠ .rstRelease → exec c s = .next s) ∧
    (s.held = false → exec .rstRelease s = .next s) ∧
    (s.portFree →
      ∃ t, exec .partReset s = .next t ∧ t.summary = 0xD1#8 ∧
        t = { State.reset with pending := s.pending, sdoStatus := s.summary, sdo := [0#8], buffer := .ready ⟨.ok, .empty⟩ })

/-- R2, R24, R34, R56, R57, R64, R77, R79, R106, R107, R110, R117, R138, R149. The state right after part reset, block by block. The last
figure of a channel is the model's own mark (notes/assumptions/3.md). -/
def Obligations.ResetGivesEveryBlockItsValues : Prop :=
  (∀ i, (State.reset.slot i).condition = .free ∧ (State.reset.slot i).revision = 0 ∧ (State.reset.slot i).airing = 0) ∧
  (∀ t, State.reset.order t = [] ∧ State.reset.armedQueue t = [] ∧ State.reset.statusOf t = .none) ∧
  State.reset.freeEntries = 2048 ∧ State.reset.freeStaging = 128 ∧ State.reset.keyMap = [] ∧
  (∀ g, State.reset.group g = ⟨.idle, .a, none, [], [], 0, .none⟩) ∧
  (∀ t, State.reset.track t = ⟨3, 12, 125, 25, none, false, none, none, 0, none⟩) ∧
  (∀ i, (State.reset.input i).active = false ∧ (State.reset.input i).count = 0) ∧
  State.reset.sfc = 0 ∧ State.reset.reference = .flywheel ∧ State.reset.qualifying = 0 ∧ State.reset.frameRate = .r25 ∧
  (∀ p, State.reset.presenter p =
    ⟨false, 2133, true, 3, 1, 512, 1536, 20, 0, 250, ⟨12, 12⟩, ⟨0, 0⟩, ⟨4, 4⟩, none⟩) ∧
  State.reset.readsDone = [] ∧ State.reset.firing = [] ∧ State.reset.cuesDone = [] ∧
  State.reset.route 0 = ⟨true, 0, 0xFFFF#16, 0x3#2, 0x3F#6, ⟨0, 0, .timed, 0, 10, 0, 5⟩⟩ ∧ State.reset.isGlobal = true ∧
  (∀ n, n ≠ 0 → State.reset.route n = ⟨false, 0, 0, 0, 0, ⟨0, 0, .timed, 0, 10, 0, 5⟩⟩) ∧
  State.reset.defaultRoute = ⟨false, ⟨0, 0, .timed, 0, 10, 0, 5⟩⟩ ∧
  (∀ c, State.reset.channel c = ⟨.none, .offline, .latch, 25, 100, 250, false, none, 0, none, [], 0, 0, 0, 0, false⟩) ∧
  (∀ p, State.reset.light p = ⟨.off, 0, false, false⟩) ∧ State.reset.rotation = 0 ∧
  State.reset.buffer = .empty ∧ State.reset.debounce = 2 ∧
  (∀ e, State.reset.flags.get e = decide (e = .resetSeen)) ∧ (∀ e, State.reset.mask.get e = true) ∧
  (∀ k, State.reset.tx k = ⟨none, []⟩) ∧ (∀ k, State.reset.rx k = .hunting)

/-- R153, with the quads and the fill of R163. A read shifts out the summary status and then, while the buffer is READY, the result, the
length in quads and the body padded to whole quads, with fill bytes after the end; a read of the whole response consumes it, a shorter one
consumes nothing, and with no READY response only fill bytes follow and nothing changes. -/
def Obligations.ReadTransactionDeliversResponse : Prop :=
  ∀ s : State, s.held = false →
    (∀ a, s.buffer = .ready a →
      (∃ body, a.bytes = BitVec.ofNat 8 a.result.code :: BitVec.ofNat 8 (body.length / 4) :: body ∧ 4 ∣ body.length ∧
        body.length ≤ 1020) ∧
      (∀ n, n < a.bytes.length →
        exec (.readTransaction (.upTo (n + 1))) s = .next { s with sdoStatus := s.summary, sdo := a.bytes.take n }) ∧
      (∀ n, exec (.readTransaction (.upTo (a.bytes.length + n + 1))) s =
        .next { s with sdoStatus := s.summary, sdo := a.bytes ++ List.replicate n 0, buffer := .empty }) ∧
      (∀ n, exec (.readTransaction (.whole n)) s =
        .next { s with sdoStatus := s.summary, sdo := a.bytes ++ List.replicate n 0, buffer := .empty })) ∧
    ((∀ a, s.buffer ≠ .ready a) →
      (∀ n, exec (.readTransaction (.upTo (n + 1))) s =
        .next { s with sdoStatus := s.summary, sdo := List.replicate n 0 }) ∧
      (∀ n, exec (.readTransaction (.whole n)) s = .next { s with sdoStatus := s.summary, sdo := List.replicate n 0 }))

/-- R151. The three framing checks of a write, in order: a count of whole bytes that differs from the length byte, or a part
byte, gives FRAME; then a code outside the table UNKNOWN; then a size that is not the request's own FRAME. The answer has an
empty body and nothing else changes. A write that passes them is the request its bytes spell, and each code of the table spells one
(DEDUCED in the fields whose order no table gives: notes/assumptions/1.md). -/
def Obligations.FramingErrorsAreAnswered : Prop :=
  ∀ (length : Nat) (bytes : List Byte) (part : Bool) (s : State), s.portFree → 0 < length →
    (part = true ∨ bytes.length ≠ length →
      exec (.unknownRequest length bytes part) s = .next (s.answeredWith bytes.length .frame .empty)) ∧
    (∀ code body, part = false → bytes = code :: body → bytes.length = length →
      (code.toNat ∉ [0x01, 0x02, 0x03, 0x04, 0x05, 0x06, 0x07, 0x08, 0x09, 0x10, 0x11, 0x12, 0x13, 0x20, 0x21, 0x22, 0x23,
          0x24, 0x25, 0x28, 0x29, 0x30, 0x31, 0x32, 0x38, 0x39, 0x3A, 0x40, 0x41, 0x42, 0x50, 0x51, 0x52, 0x53, 0x54] →
        exec (.unknownRequest length bytes part) s = .next (s.answeredWith bytes.length .unknown .empty)) ∧
      (∀ size, (code.toNat, size) ∈ [(0x02, 27), (0x03, 7), (0x04, 5), (0x05, 5), (0x07, 2), (0x08, 4), (0x09, 4), (0x10, 2),
          (0x11, 2), (0x12, 1), (0x13, 1), (0x20, 1), (0x21, 1), (0x22, 2), (0x23, 13), (0x24, 1), (0x25, 1), (0x28, 4),
          (0x29, 0), (0x30, 20), (0x31, 3), (0x32, 1), (0x38, 20), (0x39, 1), (0x3A, 4), (0x40, 10), (0x41, 1), (0x42, 1),
          (0x50, 0), (0x51, 0), (0x52, 17), (0x53, 0), (0x54, 0)] → body.length ≠ size →
        exec (.unknownRequest length bytes part) s = .next (s.answeredWith bytes.length .frame .empty)) ∧
      (∀ fixed, (code.toNat, fixed) ∈ [(0x01, 25), (0x06, 6)] →
        (∀ n : Byte, body[fixed - 1]? = some n → body.length ≠ fixed + 7 * n.toNat) →
        exec (.unknownRequest length bytes part) s = .next (s.answeredWith bytes.length .frame .empty)) ∧
      (framing length bytes part = none →
        ∃ c, requestOf code.toNat body = some c ∧ c.isRequest = true ∧ exec (.unknownRequest length bytes part) s = exec c s))

/-- R154. The eight bits of the summary status, each from the state standing, and every transaction shifts that byte out. -/
def Obligations.SummaryStatusShowsStandingState : Prop :=
  ∀ s : State, s.held = false →
    (s.summary.getLsbD 7 = true ↔ ∃ e, s.flags.get e = true ∧ s.mask.get e = true) ∧
    (s.summary.getLsbD 6 = true ↔ s.flags.get .resetSeen = true) ∧
    (s.summary.getLsbD 5 = true ↔ ∃ c, (s.channel c).faultFlag = true) ∧
    (s.summary.getLsbD 4 = true ↔ s.reference = .flywheel) ∧
    (s.summary.getLsbD 3 = true ↔ (s.track .a).onAir.isSome = true) ∧
    (s.summary.getLsbD 2 = true ↔ (s.track .b).onAir.isSome = true) ∧
    (s.summary.getLsbD 1 = true ↔ ∃ g, (s.group g).state = .armed) ∧
    (s.summary.getLsbD 0 = true ↔ s.buffer ≠ .empty) ∧
    (∀ c : Instr, c.wellFormed = true → (c.isRequest = true ∨ ∃ k, c = .readTransaction k) →
      ∃ t, exec c s = .next t ∧ t.sdoStatus = s.summary)

/-- R156, R157, R158. EVENT.READ answers the flags and the mask as they stand and clears every flag but RESET_SEEN;
EVENT.ACK_RESET clears RESET_SEEN alone. ATTN# follows the flags and the mask, and nothing else changes. An event flag that is set
stays set through every command but the one that clears it, these two and the resets; a write of any bytes is the command it
spells. -/
def Obligations.EventReadAndAckResetClearFlags : Prop :=
  (∀ s : State, s.portFree →
    (∃ t, exec .eventRead s = .next t ∧ t = { s.answeredWith 1 .ok (.events s.flags s.mask) with flags := t.flags } ∧
      (∀ e, t.flags.get e = (s.flags.get e && decide (e = .resetSeen))) ∧
      (t.attnActive = true ↔ s.flags.get .resetSeen = true ∧ s.mask.get .resetSeen = true)) ∧
    (∃ t, exec .eventAckReset s = .next t ∧ t = { s.answeredWith 1 .ok .empty with flags := t.flags } ∧
      (∀ e, t.flags.get e = (s.flags.get e && decide (e ≠ .resetSeen))) ∧
      (t.attnActive = true ↔ ∃ e, e ≠ .resetSeen ∧ s.flags.get e = true ∧ s.mask.get e = true))) ∧
  (∀ (c : Instr) (s t : State) (e : Event), exec c s = .next t → c.spelled.isReset = false → s.flags.get e = true →
    (c.spelled = .eventRead → e = .resetSeen) → (c.spelled = .eventAckReset → e ≠ .resetSeen) → t.flags.get e = true)

/-- R163, section 11.2. Decoding a request's bytes gives the request back: for every request that can reach the part, but the five of
settings, the bytes written by the tables of section 11.2 have the request's length, pass the framing checks, spell that request and, as
a write of any bytes, do what it does. Where a rule gives the fields of a body and section 11.2 its size alone, their order is DEDUCED
(notes/assumptions/1.md). -/
def Obligations.RequestBytesSpellTheirCommand : Prop :=
  ∀ (c : Instr) (bytes : List Byte), c.wellFormed = true → c.written = some bytes →
    bytes.length = c.writeLength ∧ framing bytes.length bytes false = none ∧
    (∃ code body, bytes = code :: body ∧ requestOf code.toNat body = some c) ∧
    ∀ s : State, exec (.unknownRequest bytes.length bytes false) s = exec c s

/-! ### Item records and the rundown order (chapter 1) -/

/-- R12, R15 to R19. The checks of a direct write in their order: the first that fails gives the result, the body is empty and
nothing else changes. That the key, the kind and the presenter of an ITEM.UPDATE are looked at only where its field set names them is
the model's reading (DEDUCED: notes/assumptions/8.md). -/
def Obligations.WritesAreCheckedInOrder : Prop :=
  ∀ (s : State) (e : Edit), s.portFree →
    (editFormBad e → exec (editRequest e) s = .next (s.answeredWith (writeLengthOf e) .range .empty)) ∧
    (¬editFormBad e → ∀ (i : Slot) (rev : Nat), editNames e = some (i.val, rev) →
      ((s.slot i).isLive = false → exec (editRequest e) s = .next (s.answeredWith (writeLengthOf e) .notFound .empty)) ∧
      ((s.slot i).isLive = true →
        ((s.slot i).revision ≠ BitVec.ofNat 16 rev → exec (editRequest e) s = .next (s.answeredWith (writeLengthOf e) .stale .empty)) ∧
        ((s.slot i).revision = BitVec.ofNat 16 rev →
          (s.airs i →
            (∀ id r f b, e = .update id r f b →
              (f.testBit 2 = true ∧ b.flags.testBit 0 = true) ∨ f.testBit 0 = true ∨ f.testBit 1 = true) →
            exec (editRequest e) s = .next (s.answeredWith (writeLengthOf e) .onAir .empty)) ∧
          (¬s.airs i →
            (∀ id r, e = .restore id r → (s.slot i).state = .planned ∨ (s.slot i).state = .ready →
              exec (editRequest e) s = .next (s.answeredWith (writeLengthOf e) .state .empty)) ∧
            (∀ id r a, e = .move id r a → s.anchorBad (s.slot i).track (some i) a →
              exec (editRequest e) s = .next (s.answeredWith (writeLengthOf e) .range .empty)) ∧
            (∀ id r f b, e = .update id r f b → f.testBit 0 = true → s.keyTaken b.key (some i) →
              exec (editRequest e) s = .next (s.answeredWith (writeLengthOf e) .duplicate .empty)) ∧
            (∀ id r l, e = .cues id r l → s.freeEntries + (s.slot i).cues.length < l.length →
              exec (editRequest e) s = .next (s.answeredWith (writeLengthOf e) .noSpace .empty)))))) ∧
    (¬editFormBad e → ∀ t a b l, e = .create (trackCode t) a b l →
      (s.anchorBad t none a → exec (editRequest e) s = .next (s.answeredWith (writeLengthOf e) .range .empty)) ∧
      (¬s.anchorBad t none a →
        (s.keyTaken b.key none → exec (editRequest e) s = .next (s.answeredWith (writeLengthOf e) .duplicate .empty)) ∧
        (¬s.keyTaken b.key none → (∀ j, (s.slot j).condition ≠ .free) ∨ s.freeEntries < l.length →
          exec (editRequest e) s = .next (s.answeredWith (writeLengthOf e) .noSpace .empty))))

/-- R13, with R1, R5, R6, R9 and R11. An accepted ITEM.CREATE makes the lowest-numbered free slot live with the fields and cues
given, its revision advanced and its airing kept, puts it in the order at its anchor and draws its cue entries; the READY choice
follows (its cues: ReadyChoiceTakesTheFirstCandidate), and nothing else changes but by that choice. Its hard-in is watched from the next
frame event on (R52; DEDUCED: notes/assumptions/16.md). -/
def Obligations.ItemCreateMakesTheLowestFreeSlotLive : Prop :=
  ∀ (s : State) (t : Track) (anchor : Option Slot) (b : RawBlock) (l : List RawCue) (i : Slot), s.portFree →
    ¬editFormBad (.create (trackCode t) (anchorCode anchor) b l) → ¬s.anchorBad t none (anchorCode anchor) →
    ¬s.keyTaken b.key none → (s.slot i).condition = .free → (∀ j, j < i → (s.slot j).condition ≠ .free) →
    l.length ≤ s.freeEntries →
    ∃ u, exec (.itemCreate (trackCode t) (anchorCode anchor) b l) s = .next u ∧
      (u.slot i).condition = .live ∧ (u.slot i).track = t ∧ (u.slot i).revision = nextRevision (s.slot i).revision ∧
      (u.slot i).fields.GivenBy {} b (fun _ => true) ∧ List.Forall₂ (fun q c => q.spec.GivenBy c) (u.slot i).cues l ∧
      (u.slot i).start = none ∧ (u.slot i).actual = none ∧ (u.slot i).prompterEnd = none ∧
      u.order t = insertAfter anchor i (s.order t) ∧ u.entriesInUse + (s.slot i).cues.length = s.entriesInUse + l.length ∧
      s.Answers u (26 + 7 * l.length) (okOr (decide (4095 < b.words ∨ 1048575 < b.planned))) (.item i (u.slot i).revision) ∧
      s.EditOf u t i ∧ (i ∉ s.candidates t → u.watchedHardIn t i = none) ∧ (u.track t).ready = (u.candidates t).head? ∧
      (∃ v, ({ s with sdoStatus := u.sdoStatus, sdo := u.sdo } : State).EditMade v i false
          (.create t anchor (u.slot i).fields ((u.slot i).cues.map Cue.spec)) ∧
        u = { v.readyChoice t with buffer := u.buffer }) ∧
      ((u.track t).ready ≠ some i → (u.slot i).state = .planned ∧ (u.slot i).airing = (s.slot i).airing) ∧
      ((u.track t).ready = some i → (s.track t).ready ≠ some i →
        (u.slot i).state = .ready ∧ (u.slot i).airing = nextAiring (s.slot i).airing) ∧
      ((u.track t).ready = (s.track t).ready →
        s.QuietBut u i ∧ u.prompterTx = s.prompterTx ∧ (u.slot i).cueFault = false ∧ ∀ q ∈ (u.slot i).cues, q = q.spec.fresh)

/-- R14, R15, with R5 and R145. An accepted ITEM.UPDATE gives the fields it names their values and advances the revision once; a
change of floated hands the choice, and without one nothing else changes but the script load of a READY item. A change to hard-in acts on
the hard-in watch from the next frame event: in frame work still due an item READY or eligible is watched by the hard-in it had, and one
made eligible by the update is not watched (R52; DEDUCED: notes/assumptions/16.md). That a bad key, kind or
presenter in a field the field set does not name is disregarded is the model's reading (DEDUCED: notes/assumptions/8.md). -/
def Obligations.ItemUpdateChangesTheNamedFields : Prop :=
  ∀ (s : State) (i : Slot) (fields : Nat) (b : RawBlock), s.portFree →
    ¬editFormBad (.update i.val (s.slot i).revision.toNat fields b) → (s.slot i).isLive = true →
    (s.airs i → fields.testBit 0 = false ∧ fields.testBit 1 = false ∧ ¬(fields.testBit 2 = true ∧ b.flags.testBit 0 = true)) →
    (fields.testBit 0 = true → ¬s.keyTaken b.key (some i)) →
    ∃ u, exec (.itemUpdate i.val (s.slot i).revision.toNat fields b) s = .next u ∧
      (u.slot i).fields.GivenBy (s.slot i).fields b (fun n => fields.testBit n) ∧
      Item.Alike { s.slot i with revision := nextRevision (s.slot i).revision, fields := (u.slot i).fields } (u.slot i) ∧
      u.orders = s.orders ∧
      s.Answers u 28
        (okOr (decide ((fields.testBit 4 = true ∧ 4095 < b.words) ∨ (fields.testBit 5 = true ∧ 1048575 < b.planned))))
        (.item i (u.slot i).revision) ∧
      s.EditOf u (s.slot i).track i ∧ u.looks = s.keepWatch.looks ∧
      (i ∈ s.candidates (s.slot i).track → u.watchedHardIn (s.slot i).track i = s.watchedHardIn (s.slot i).track i) ∧
      (i ∉ s.candidates (s.slot i).track → u.watchedHardIn (s.slot i).track i = none) ∧
      (fields.testBit 2 = true → b.flags.testBit 0 ≠ (s.slot i).fields.floated →
        (u.track (s.slot i).track).ready = (u.candidates (s.slot i).track).head? ∧
        ∃ v, v = ({ s with sdoStatus := u.sdoStatus, sdo := u.sdo, prompterTx := v.prompterTx } : State).keepWatch.setSlot i
            { s.slot i with revision := nextRevision (s.slot i).revision, fields := (u.slot i).fields } ∧
          v.prompterTx =
            (if fields.testBit 9 = true ∧ b.flags.testBit 5 = true ∧ (s.track (s.slot i).track).ready = some i ∧
                (s.slot i).fields.script ≠ some (BitVec.ofNat 32 b.script)
            then s.prompterTx.push (.loadScript (BitVec.ofNat 32 b.script) (s.slot i).track) else s.prompterTx) ∧
          u = { v.readyChoice (s.slot i).track with buffer := u.buffer }) ∧
      ((fields.testBit 2 = true → b.flags.testBit 0 = (s.slot i).fields.floated) →
        u.slot i = { s.slot i with revision := nextRevision (s.slot i).revision, fields := (u.slot i).fields } ∧
        s.QuietBut u i ∧ u.tracks = s.tracks ∧
        u.prompterTx =
          if fields.testBit 9 = true ∧ b.flags.testBit 5 = true ∧ (s.track (s.slot i).track).ready = some i ∧
              (s.slot i).fields.script ≠ some (BitVec.ofNat 32 b.script)
          then s.prompterTx.push (.loadScript (BitVec.ofNat 32 b.script) (s.slot i).track) else s.prompterTx)

/-- R16, with R5 and R9. An accepted ITEM.MOVE takes the item out of the order and puts it at the head or right after its anchor,
advances its revision and leaves its state to the choice that follows. An item it makes eligible is watched from the next frame event on
(R52; DEDUCED: notes/assumptions/16.md). -/
def Obligations.ItemMoveChangesTheOrder : Prop :=
  ∀ (s : State) (i : Slot) (anchor : Option Slot), s.portFree → (s.slot i).isLive = true → ¬s.airs i →
    ¬s.anchorBad (s.slot i).track (some i) (anchorCode anchor) →
    ∃ u, exec (.itemMove i.val (s.slot i).revision.toNat (anchorCode anchor)) s = .next u ∧
      Item.Alike { s.slot i with revision := nextRevision (s.slot i).revision } (u.slot i) ∧
      u.order (s.slot i).track = insertAfter anchor i ((s.order (s.slot i).track).filter (fun j => decide (j ≠ i))) ∧
      s.Answers u 8 .ok (.item i (u.slot i).revision) ∧ s.EditOf u (s.slot i).track i ∧
      (i ∉ s.candidates (s.slot i).track → u.watchedHardIn (s.slot i).track i = none) ∧
      (u.track (s.slot i).track).ready = (u.candidates (s.slot i).track).head? ∧
      (∃ v, ({ s with sdoStatus := u.sdoStatus, sdo := u.sdo } : State).EditMade v i false (.move anchor) ∧
        u = { v.readyChoice (s.slot i).track with buffer := u.buffer }) ∧
      ((u.track (s.slot i).track).ready = (s.track (s.slot i).track).ready →
        s.QuietBut u i ∧ u.prompterTx = s.prompterTx ∧
        u.slot i = { s.slot i with revision := nextRevision (s.slot i).revision })

/-- R17, with R3, R5, R6, R9 and R11. An accepted ITEM.RETIRE frees the slot, which keeps its revision and airing, each advanced,
takes the item out of the order, withdraws its cues that wait and returns its cue entries; the READY choice follows. -/
def Obligations.ItemRetireFreesTheSlot : Prop :=
  ∀ (s : State) (i : Slot), s.portFree → (s.slot i).isLive = true → ¬s.airs i →
    ∃ u, exec (.itemRetire i.val (s.slot i).revision.toNat) s = .next u ∧
      Item.Alike { revision := nextRevision (s.slot i).revision, airing := nextAiring (s.slot i).airing } (u.slot i) ∧
      (u.slot i).airing = nextAiring (s.slot i).airing ∧ (u.slot i).state = .planned ∧
      u.order (s.slot i).track = (s.order (s.slot i).track).filter (fun j => decide (j ≠ i)) ∧
      u.entriesInUse + (s.slot i).cues.length = s.entriesInUse ∧
      s.Answers u 6 .ok (.item i (u.slot i).revision) ∧ s.EditOf u (s.slot i).track i ∧
      (u.track (s.slot i).track).ready = (u.candidates (s.slot i).track).head? ∧ (u.track (s.slot i).track).ready ≠ some i ∧
      (∃ v, ({ s with sdoStatus := u.sdoStatus, sdo := u.sdo } : State).EditMade v i false .retire ∧
        u = { v.readyChoice (s.slot i).track with buffer := u.buffer }) ∧
      (s.noneWaiting i → (u.track (s.slot i).track).ready = (s.track (s.slot i).track).ready →
        s.QuietBut u i ∧ u.prompterTx = s.prompterTx)

/-- R18, with R5 and R102. An accepted ITEM.RESTORE returns a DONE or SKIPPED item to PLANNED with its revision advanced and its
airing kept, its start, actual and prompter end absent, its cues that wait withdrawn and every cue PENDING, and its cue fault no, in its
place of the order; the choice follows, which alone may arm its cues, where it makes the item READY. An item it makes eligible is watched
from the next frame event on (R52; DEDUCED: notes/assumptions/16.md). -/
def Obligations.ItemRestoreReturnsTheItem : Prop :=
  ∀ (s : State) (i : Slot), s.portFree → (s.slot i).isLive = true → ¬s.airs i → (s.slot i).state ≠ .planned →
    (s.slot i).state ≠ .ready →
    ∃ u, exec (.itemRestore i.val (s.slot i).revision.toNat) s = .next u ∧
      Item.Alike { s.slot i with revision := nextRevision (s.slot i).revision, start := none, actual := none, prompterEnd := none }
        (u.slot i) ∧
      u.orders = s.orders ∧ s.Answers u 6 .ok (.item i (u.slot i).revision) ∧ s.EditOf u (s.slot i).track i ∧
      (i ∉ s.candidates (s.slot i).track → u.watchedHardIn (s.slot i).track i = none) ∧
      (u.track (s.slot i).track).ready = (u.candidates (s.slot i).track).head? ∧
      (∃ v, ({ s with sdoStatus := u.sdoStatus, sdo := u.sdo } : State).EditMade v i false .restore ∧
        u = { v.readyChoice (s.slot i).track with buffer := u.buffer }) ∧
      ((u.track (s.slot i).track).ready ≠ some i → (u.slot i).state = .planned ∧ (u.slot i).airing = (s.slot i).airing) ∧
      (s.QueuesIdle → (u.track (s.slot i).track).ready ≠ some i →
        (u.slot i).cueFault = false ∧ (u.slot i).cues = (s.slot i).cues.map (fun q => q.spec.fresh)) ∧
      (s.noneWaiting i → (u.track (s.slot i).track).ready = (s.track (s.slot i).track).ready →
        s.QuietBut u i ∧ u.prompterTx = s.prompterTx ∧ (u.slot i).cueFault = false ∧
        (u.slot i).cues = (s.slot i).cues.map Cue.pend)

/-- R19, with R5, R6, R11 and R101. An accepted ITEM.CUES withdraws the old cues that wait, installs the new list in their place, every
cue PENDING and the cue fault no, advances revision and airing, and hands no changed event; for the item that is READY the new READY-phase
cues are then armed at the current frame, and for any other item the new cues all stay PENDING. -/
def Obligations.ItemCuesReplacesTheList : Prop :=
  ∀ (s : State) (i : Slot) (l : List RawCue), s.portFree → (s.slot i).isLive = true → ¬s.airs i → l.length ≤ 16 →
    (∀ c ∈ l, ¬cueFormBad c) → l.length ≤ s.freeEntries + (s.slot i).cues.length →
    ∃ u, exec (.itemCues i.val (s.slot i).revision.toNat l) s = .next u ∧
      List.Forall₂ (fun q c => q.spec.GivenBy c) (u.slot i).cues l ∧
      Item.Alike { s.slot i with revision := nextRevision (s.slot i).revision, cues := (u.slot i).cues } (u.slot i) ∧
      (u.slot i).airing = nextAiring (s.slot i).airing ∧ (u.slot i).state = (s.slot i).state ∧
      u.orders = s.orders ∧ u.tracks = s.tracks ∧ u.entriesInUse + (s.slot i).cues.length = s.entriesInUse + l.length ∧
      u.prompterTx = s.prompterTx ∧ s.Answers u (7 + 7 * l.length) .ok (.item i (u.slot i).revision) ∧ s.EditOf u (s.slot i).track i ∧
      (∃ v, ({ s with sdoStatus := u.sdoStatus, sdo := u.sdo } : State).EditMade v i false (.cues ((u.slot i).cues.map Cue.spec)) ∧
        u = { v with buffer := u.buffer }) ∧
      ((s.track (s.slot i).track).ready ≠ some i → (u.slot i).cueFault = false ∧ ∀ q ∈ (u.slot i).cues, q = q.spec.fresh) ∧
      (s.QueuesIdle → (s.track (s.slot i).track).ready = some i →
        ∃ a, ({ s with sdoStatus := u.sdoStatus, sdo := u.sdo } : State).keepWatch.Abandoned a i (fun _ => true) ∧
          u = { (a.setSlot i { s.slot i with
                  revision := nextRevision (s.slot i).revision, airing := nextAiring (s.slot i).airing, cueFault := false
                  cues := (u.slot i).cues.map (fun q => q.spec.fresh) }).armPhase .ready s.sfc i with buffer := u.buffer }) ∧
      (s.noneWaiting i → (s.track (s.slot i).track).ready ≠ some i → s.QuietBut u i)

/-- R20 to R22. ITEM.READ answers the two table figures, the record and the six derived values of a live item; ITEM.FIND the ID and
revision of the live item that holds the key; RUNDOWN.LIST the items of the order after the starting point, up to the count held to 1 to
16, and whether items stand after the last one given. Each refuses as its rule says, and none changes anything. No two live items hold the
same key (R8). -/
def Obligations.ItemTableReadsReport : Prop :=
  ∀ s : State, s.portFree →
    (∀ i, (s.slot i).isLive = true →
      exec (.itemRead i.val) s =
        .next (s.answeredWith 3 .ok (.itemRead ⟨s.countSlots .free, s.freeEntries, i, s.slot i, s.derived i⟩))) ∧
    (∀ i, (s.slot i).isLive = false → exec (.itemRead i.val) s = .next (s.answeredWith 3 .notFound .empty)) ∧
    (∀ n, 512 ≤ n → exec (.itemRead n) s = .next (s.answeredWith 3 .range .empty)) ∧
    exec (.itemFind 0) s = .next (s.answeredWith 5 .range .empty) ∧
    (∀ i key, s.KeysDistinct → 0 < key → key < 2 ^ 32 → (s.slot i).isLive = true → (s.slot i).fields.key = BitVec.ofNat 32 key →
      exec (.itemFind key) s = .next (s.answeredWith 5 .ok (.item i (s.slot i).revision))) ∧
    (∀ key, 0 < key → key < 2 ^ 32 → (∀ i, (s.slot i).isLive = true → (s.slot i).fields.key ≠ BitVec.ofNat 32 key) →
      exec (.itemFind key) s = .next (s.answeredWith 5 .notFound .empty)) ∧
    (∀ (t : Track) (count : Nat),
      (∀ before rest start,
        (start = 0xFFFF ∧ before = [] ∧ s.order t = rest) ∨
          (∃ a : Slot, start = a.val ∧ (s.slot a).isLive = true ∧ (s.slot a).track = t ∧ a ∉ before ∧
            s.order t = before ++ a :: rest) →
        ∃ rows, exec (.rundownList (trackCode t) start count) s =
            .next (s.answeredWith 5 (okOr (decide (count = 0 ∨ 16 < count))) (.rundown rows (decide (min 16 (max 1 count) < rest.length)))) ∧
          rows.map ListRow.id = rest.take (min 16 (max 1 count)) ∧
          ∀ r ∈ rows, r = ⟨r.id, (s.slot r.id).revision, (s.slot r.id).state, (s.slot r.id).fields.floated, (s.derived r.id).working,
            (s.derived r.id).front, (s.derived r.id).back⟩) ∧
      (∀ start, anchorFormBad start ∨ s.anchorBad t none start →
        exec (.rundownList (trackCode t) start count) s = .next (s.answeredWith 5 .range .empty)) ∧
      (∀ n start, 2 ≤ n → exec (.rundownList n start count) s = .next (s.answeredWith 5 .range .empty)))

/-- R10, R44, R45, with R5, R6, R96, R101 and R145. The candidates are the items after the ON_AIR item, or all of the order, that are not
floated and are PLANNED or the READY item. The READY choice leaves the first of them as READY item: entering READY it takes state READY
and advances its airing but not its revision and has its script loaded, and the item it displaces returns to PLANNED with both kept. The
item that enters READY has its cue fault cleared, every cue that is not SENT and every READY-phase cue PENDING, and its READY-phase cues
armed at the current frame; before it the item displaced has its READY-phase cues that wait abandoned, and nothing else changes: so told
where no READY channel has a cue queued. -/
def Obligations.ReadyChoiceTakesTheFirstCandidate : Prop :=
  ∀ (s : State) (t : Track),
    (∀ i, i ∈ s.candidates t ↔
      i ∈ s.afterOnAir t ∧ (s.slot i).fields.floated = false ∧ ((s.slot i).state = .planned ∨ (s.track t).ready = some i)) ∧
    ((s.track t).onAir = none → s.afterOnAir t = s.order t) ∧
    (∀ o before rest, (s.track t).onAir = some o → s.order t = before ++ o :: rest → o ∉ before → s.afterOnAir t = rest) ∧
    ((s.readyChoice t).track t).ready = (s.candidates t).head? ∧
    ((s.candidates t).head? = (s.track t).ready → s.readyChoice t = s) ∧
    (∀ i, (s.candidates t).head? = some i → (s.track t).ready ≠ some i →
      ((s.readyChoice t).slot i).state = .ready ∧ ((s.readyChoice t).slot i).airing = nextAiring (s.slot i).airing ∧
      ((s.readyChoice t).slot i).revision = (s.slot i).revision ∧
      (s.readyChoice t).prompterTx =
        match (s.slot i).fields.script with
        | some f => s.prompterTx.push (.loadScript f t)
        | none => s.prompterTx) ∧
    (∀ r, (s.track t).ready = some r → (s.candidates t).head? ≠ some r → (s.slot r).state = .ready →
      ((s.readyChoice t).slot r).state = .planned ∧ ((s.readyChoice t).slot r).airing = (s.slot r).airing ∧
      ((s.readyChoice t).slot r).revision = (s.slot r).revision) ∧
    (s.QueuesIdle →
      (∀ i, (s.candidates t).head? = some i → (s.track t).ready ≠ some i →
        ∃ v, ((s.track t).ready = none → v = s) ∧ (∀ r, (s.track t).ready = some r → s.LeavesReady v t r) ∧
          v.EntersReady (s.readyChoice t) t i) ∧
      (∀ r, (s.candidates t).head? = none → (s.track t).ready = some r → s.LeavesReady (s.readyChoice t) t r))

/-! ### Edit groups (chapter 2) -/

/-- R26, R38, with R37. GROUP.OPEN empties an IDLE group and opens it for the track given; GROUP.DISCARD returns an OPEN or ARMED group's
slots and pool entries, takes it out of its queue and leaves it IDLE with last result NONE; GROUP.READ answers its record,
its place in the queue, its edits' heads and its reserved slots in ascending order. Each refuses as its rule says, and nothing else
changes. -/
def Obligations.GroupOpenDiscardAndRead : Prop :=
  ∀ (s : State) (g : GroupNo), s.portFree →
    (∀ t, (s.group g).state = .idle →
      ∃ u, exec (.groupOpen g.val (trackCode t)) s = .next u ∧
        u = { s.answeredWith 3 .ok (.groupOpened g u.freeStaging) with groups := u.groups } ∧
        u.group g = { s.group g with state := .opened, track := t, launch := none, edits := [], last := .none } ∧
        ∀ h, h ≠ g → u.group h = s.group h) ∧
    (∀ t, (s.group g).state ≠ .idle → exec (.groupOpen g.val (trackCode t)) s = .next (s.answeredWith 3 .state .empty)) ∧
    (∀ n t, 4 ≤ n ∨ 2 ≤ t → exec (.groupOpen n t) s = .next (s.answeredWith 3 .range .empty)) ∧
    ((s.group g).state ≠ .idle →
      ∃ u, exec (.groupDiscard g.val) s = .next u ∧
        u = { s.answeredWith 2 .ok (.discarded u.freeStaging) with slots := u.slots, groups := u.groups, armed := u.armed } ∧
        u.group g = { s.group g with state := .idle, edits := [], reserved := [], reservedEntries := 0, last := .none } ∧
        (∀ h, h ≠ g → u.group h = s.group h) ∧
        (∀ i, i ∈ (s.group g).reserved → u.slot i = { revision := (s.slot i).revision, airing := (s.slot i).airing }) ∧
        (∀ i, i ∉ (s.group g).reserved → u.slot i = s.slot i) ∧
        u.armedQueue (s.group g).track = (s.armedQueue (s.group g).track).filter (fun h => decide (h ≠ g)) ∧
        ∀ v, v ≠ (s.group g).track → u.armedQueue v = s.armedQueue v) ∧
    ((s.group g).state = .idle → exec (.groupDiscard g.val) s = .next (s.answeredWith 2 .state .empty)) ∧
    (∀ n, 4 ≤ n → exec (.groupDiscard n) s = .next (s.answeredWith 2 .range .empty)) ∧
    (∃ place slots,
      exec (.groupRead g.val) s =
        .next (s.answeredWith 2 .ok (.groupRead ⟨(s.group g).state, (s.group g).track, (s.group g).launch, place,
          (s.group g).edits.map (fun e => ⟨e.body.code, e.slot, e.revision⟩), slots, (s.group g).reservedEntries,
          (s.group g).last, s.freeStaging⟩)) ∧
      ((s.group g).state ≠ .armed → place = none) ∧
      (∀ before after, (s.group g).state = .armed → s.armedQueue (s.group g).track = before ++ g :: after → g ∉ before →
        place = some before.length) ∧
      slots.Pairwise (· < ·) ∧ (∀ i, i ∈ slots ↔ i ∈ (s.group g).reserved)) ∧
    (∀ n, 4 ≤ n → exec (.groupRead n) s = .next (s.answeredWith 2 .range .empty))

/-- R27. The checks of a staged edit in their order: the first that fails gives the result and nothing else changes. A named item
is live, or reserved by this group. That the key, the kind and the presenter of an UPDATE are looked at only where its field set names
them is the model's reading (DEDUCED: notes/assumptions/8.md). -/
def Obligations.StagedEditsAreCheckedInOrder : Prop :=
  ∀ (s : State) (g : GroupNo) (e : Edit), s.portFree →
    (editFormBad e → exec (.stagedEdit g.val e) s = .next (s.answeredWith (writeLengthOf e) .range .empty)) ∧
    (∀ n, 4 ≤ n → n ≠ 255 → exec (.stagedEdit n e) s = .next (s.answeredWith (writeLengthOf e) .range .empty)) ∧
    (¬editFormBad e → (s.group g).state ≠ .opened → exec (.stagedEdit g.val e) s = .next (s.answeredWith (writeLengthOf e) .state .empty)) ∧
    (¬editFormBad e → (s.group g).state = .opened →
      (∀ t a b l, e = .create (trackCode t) a b l →
        (t ≠ (s.group g).track → exec (.stagedEdit g.val e) s = .next (s.answeredWith (writeLengthOf e) .range .empty)) ∧
        (t = (s.group g).track →
          (s.stagedAnchorBad g none a → exec (.stagedEdit g.val e) s = .next (s.answeredWith (writeLengthOf e) .range .empty)) ∧
          (¬s.stagedAnchorBad g none a →
            (s.keyTaken b.key none → exec (.stagedEdit g.val e) s = .next (s.answeredWith (writeLengthOf e) .duplicate .empty)) ∧
            (¬s.keyTaken b.key none →
              s.freeStaging = 0 ∨ (∀ j, (s.slot j).condition ≠ .free) ∨ s.freeEntries < l.length →
              exec (.stagedEdit g.val e) s = .next (s.answeredWith (writeLengthOf e) .noSpace .empty))))) ∧
      (∀ (i : Slot) (rev : Nat), editNames e = some (i.val, rev) →
        (i ∉ (s.group g).reserved →
          ((s.slot i).isLive = false → exec (.stagedEdit g.val e) s = .next (s.answeredWith (writeLengthOf e) .notFound .empty)) ∧
          ((s.slot i).isLive = true → (s.slot i).track ≠ (s.group g).track →
            exec (.stagedEdit g.val e) s = .next (s.answeredWith (writeLengthOf e) .range .empty)) ∧
          ((s.slot i).isLive = true → (s.slot i).track = (s.group g).track → (s.slot i).revision ≠ BitVec.ofNat 16 rev →
            exec (.stagedEdit g.val e) s = .next (s.answeredWith (writeLengthOf e) .stale .empty))) ∧
        (i ∈ (s.group g).reserved ∨
            (s.slot i).isLive = true ∧ (s.slot i).track = (s.group g).track ∧ (s.slot i).revision = BitVec.ofNat 16 rev →
          (∀ id r a, e = .move id r a → s.stagedAnchorBad g (some i) a →
            exec (.stagedEdit g.val e) s = .next (s.answeredWith (writeLengthOf e) .range .empty)) ∧
          (∀ id r a, e = .move id r a → ¬s.stagedAnchorBad g (some i) a → s.freeStaging = 0 →
            exec (.stagedEdit g.val e) s = .next (s.answeredWith (writeLengthOf e) .noSpace .empty)) ∧
          (∀ id r f b, e = .update id r f b → f.testBit 0 = true → s.keyTaken b.key (some i) →
            exec (.stagedEdit g.val e) s = .next (s.answeredWith (writeLengthOf e) .duplicate .empty)) ∧
          (∀ id r f b, e = .update id r f b → (f.testBit 0 = true → ¬s.keyTaken b.key (some i)) → s.freeStaging = 0 →
            exec (.stagedEdit g.val e) s = .next (s.answeredWith (writeLengthOf e) .noSpace .empty)) ∧
          (∀ id r, e = .retire id r ∨ e = .restore id r → i ∈ (s.group g).reserved →
            exec (.stagedEdit g.val e) s = .next (s.answeredWith (writeLengthOf e) .state .empty)) ∧
          (∀ id r, e = .retire id r ∨ e = .restore id r → i ∉ (s.group g).reserved → s.freeStaging = 0 →
            exec (.stagedEdit g.val e) s = .next (s.answeredWith (writeLengthOf e) .noSpace .empty)) ∧
          (∀ id r l, e = .cues id r l → s.freeStaging = 0 ∨ s.freeEntries < l.length →
            exec (.stagedEdit g.val e) s = .next (s.answeredWith (writeLengthOf e) .noSpace .empty)))))

/-- R28, R27. A staged edit that passes its checks joins the end of its group's list and draws its resources: a staging entry, a
CREATE the lowest free slot, which becomes STAGED with its counters kept, and a list its cue entries. No live item changes. That a bad
key, kind or presenter in a field an UPDATE does not name is disregarded is the model's reading (DEDUCED: notes/assumptions/8.md). -/
def Obligations.StagedEditJoinsItsGroup : Prop :=
  ∀ (s : State) (g : GroupNo) (e : Edit) (p : ParsedEdit), s.portFree → (s.group g).state = .opened → e.parse = some p →
    0 < s.freeStaging → p.body.newEntries ≤ s.freeEntries →
    (∀ a b l (i : Slot), e = .create (trackCode (s.group g).track) a b l →
      ¬s.stagedAnchorBad g none a → ¬s.keyTaken b.key none → (s.slot i).condition = .free → (∀ j, j < i → (s.slot j).condition ≠ .free) →
      ∃ u, exec (.stagedEdit g.val e) s = .next u ∧
        u = { s.answeredWith (writeLengthOf e) (okOr (decide (4095 < b.words ∨ 1048575 < b.planned)))
                (.staged ⟨g, (s.group g).edits.length, i, (s.slot i).revision, u.freeStaging⟩) with
              slots := u.slots, groups := u.groups } ∧
        (u.slot i).condition = .staged ∧ (u.slot i).state = .staged ∧ (u.slot i).revision = (s.slot i).revision ∧
        (u.slot i).airing = (s.slot i).airing ∧ (u.slot i).track = (s.group g).track ∧
        (u.slot i).fields.GivenBy {} b (fun _ => true) ∧ List.Forall₂ (fun q c => q.spec.GivenBy c) (u.slot i).cues l ∧
        (∀ j, j ≠ i → u.slot j = s.slot j) ∧
        u.group g = { s.group g with
          edits := (s.group g).edits ++ [⟨i, none, p.body⟩], reserved := (s.group g).reserved ++ [i]
          reservedEntries := (s.group g).reservedEntries + l.length } ∧
        (∀ h, h ≠ g → u.group h = s.group h)) ∧
    (∀ (i : Slot) (rev : Nat), editNames e = some (i.val, rev) →
      i ∈ (s.group g).reserved ∧ (∀ id r, e ≠ .retire id r ∧ e ≠ .restore id r) ∨
        i ∉ (s.group g).reserved ∧ (s.slot i).isLive = true ∧ (s.slot i).track = (s.group g).track ∧
          (s.slot i).revision = BitVec.ofNat 16 rev →
      (∀ id r a, e = .move id r a → ¬s.stagedAnchorBad g (some i) a) →
      (∀ id r f b, e = .update id r f b → f.testBit 0 = true → ¬s.keyTaken b.key (some i)) →
      ∃ u, exec (.stagedEdit g.val e) s = .next u ∧
        u = { s.answeredWith (writeLengthOf e) (okOr p.clamped)
                (.staged ⟨g, (s.group g).edits.length, i, (s.slot i).revision, u.freeStaging⟩) with groups := u.groups } ∧
        u.group g = { s.group g with
          edits := (s.group g).edits ++ [⟨i, some (BitVec.ofNat 16 rev), p.body⟩]
          reservedEntries := (s.group g).reservedEntries + p.body.newEntries } ∧
        (∀ h, h ≠ g → u.group h = s.group h))

/-- R31, R34, R35, with R25, R32 and R33. GROUP.LAUNCH of an OPEN group arms it at the tail of its track's queue for BOUNDARY with an
item on air, and otherwise, in either mode, applies it at once (each: GroupEditsAreJudgedFromTheStart), with the READY choice only after
an APPLIED one: the group ends IDLE and empty with its last result, and GROUP_DONE is raised; the armed queues are as they were, without
the group. A rejected group leaves no other mark than its freed slots; a group with no edits is APPLIED and changes nothing more. The
readings of an apply are the model's (DEDUCED: notes/assumptions/14.md, as in GroupEditsAreJudgedFromTheStart). -/
def Obligations.GroupLaunchArmsOrApplies : Prop :=
  ∀ (s : State) (g : GroupNo), s.portFree →
    (∀ n m, 4 ≤ n ∨ 2 ≤ m → exec (.groupLaunch n m) s = .next (s.answeredWith 3 .range .empty)) ∧
    (∀ m, m < 2 → (s.group g).state ≠ .opened → exec (.groupLaunch g.val m) s = .next (s.answeredWith 3 .state .empty)) ∧
    ((s.group g).state = .opened → (s.track (s.group g).track).onAir ≠ none → g ∉ s.armedQueue (s.group g).track →
      ∃ u, exec (.groupLaunch g.val 1) s = .next u ∧
        u = { s.answeredWith 3 .ok (.launched .armed (s.group g).last (some (s.armedQueue (s.group g).track).length)) with
              groups := u.groups, armed := u.armed } ∧
        u.group g = { s.group g with state := .armed, launch := some .boundary } ∧ (∀ h, h ≠ g → u.group h = s.group h) ∧
        u.armedQueue (s.group g).track = s.armedQueue (s.group g).track ++ [g] ∧
        ∀ v, v ≠ (s.group g).track → u.armedQueue v = s.armedQueue v) ∧
    (∀ m mode, launchModeOf m = some mode → (s.group g).state = .opened →
      mode = .now ∨ (s.track (s.group g).track).onAir = none → ∀ w,
      w = ({ s with sdoStatus := s.summary, sdo := List.replicate 3 0 }).setGroup g { s.group g with launch := some mode } →
      ∃ v u, exec (.groupLaunch g.val m) s = .next u ∧ State.GroupApplied s.slots s.slots w v g ∧
        (u = { v with buffer := u.buffer } ∨
          (v.group g).last = .applied ∧ u = { v.readyChoice (s.group g).track with buffer := u.buffer }) ∧
        u.armedQueue (s.group g).track = (s.armedQueue (s.group g).track).filter (fun h => decide (h ≠ g)) ∧
        (∀ r, r ≠ (s.group g).track → u.armedQueue r = s.armedQueue r) ∧
        u.group g = { s.group g with
          state := .idle, launch := some mode, edits := [], reserved := [], reservedEntries := 0, last := (u.group g).last } ∧
        (∀ h, h ≠ g → u.group h = s.group h) ∧ u.flags.get .groupDone = true ∧ s.flags.Within u.flags ∧
        (s.setLooks u.looks).Aside u ∧ (∀ r, (s.look r).Keeps (u.look r)) ∧
        s.Answers u 3 .ok (.launched .idle (u.group g).last none) ∧
        ((u.group g).last = .applied ∨
          ∃ cause k, (u.group g).last = .rejected cause k ∧ k < (s.group g).edits.length ∧
            u = { s.answeredWith 3 .ok (.launched .idle (u.group g).last none) with
                  slots := u.slots, groups := u.groups, armed := u.armed, flags := s.flags.put .groupDone } ∧
            (∀ i, i ∈ (s.group g).reserved → u.slot i = { revision := (s.slot i).revision, airing := (s.slot i).airing }) ∧
            ∀ i, i ∉ (s.group g).reserved → u.slot i = s.slot i) ∧
        ((s.group g).edits = [] →
          u = { s.answeredWith 3 .ok (.launched .idle .applied none) with
                groups := u.groups, armed := u.armed, flags := s.flags.put .groupDone } ∧
          (u.group g).last = .applied))

/-- R29, R32, R33, with R5 and R35. Any list of staged edits: each is checked in its turn against the table as the edits before it left
it, a revision by the one the item held when the apply began, and carried out with the effects of its direct rule, or the list stops at
the first that fails, with its cause and index. A GROUP.LAUNCH that is applied at once, NOW or to the boundary of a track with nothing on
air, applies its group so, and the READY choice follows an applied group that changed a place or a state. So two updates of one item
advance its revision twice, a stale revision rejects the group at that edit, and the edits of a slot the group created advance it once in
all and keep its airing. The model's own reading (DEDUCED: notes/assumptions/14.md): the two passes of an apply are made as one, and an
edit whose item has been freed and used again by the other track since it was staged is refused RANGE after its revision (the clause
`reused` of State.Judges). -/
def Obligations.GroupEditsAreJudgedFromTheStart : Prop :=
  (∀ (ref : Reference) (k : Nat) (l : List StagedEdit) (s : State),
    (∀ u, State.runEdits ref k l s = .ok u → State.Carried ref s l u) ∧
    (∀ cause n, State.runEdits ref k l s = .error (cause, n) →
      ∃ before e after v, l = before ++ e :: after ∧ n = k + before.length ∧ State.Carried ref s before v ∧
        v.Judges ref e (some cause))) ∧
  (∀ (s w : State) (g : GroupNo) (m : Nat) (mode : LaunchMode), s.portFree → (s.group g).state = .opened →
    launchModeOf m = some mode → mode = .now ∨ (s.track (s.group g).track).onAir = none →
    w = ({ s with sdoStatus := s.summary, sdo := List.replicate 3 0 }).setGroup g { s.group g with launch := some mode } →
    ∃ v u, exec (.groupLaunch g.val m) s = .next u ∧ State.GroupApplied s.slots s.slots w v g ∧
      (u.group g).last = (v.group g).last ∧
      (u = { v with buffer := u.buffer } ∨ u = { v.readyChoice (s.group g).track with buffer := u.buffer }) ∧
      ((v.group g).last ≠ .applied ∨
          (∀ e ∈ (s.group g).edits, (∃ l, e.body = .cues l) ∨ ∃ p, e.body = .update p ∧ p.floated = none) →
        u = { v with buffer := u.buffer }) ∧
      ((v.group g).last = .applied →
        (∃ e ∈ (s.group g).edits, (∀ l, e.body ≠ .cues l) ∧ ∀ p, e.body ≠ .update p) →
        u = { v.readyChoice (s.group g).track with buffer := u.buffer })) ∧
  ∀ (s : State) (g : GroupNo) (i : Slot) (p q : Patch), s.portFree → (s.group g).state = .opened → p.key = none → q.key = none →
    p.floated = none → q.floated = none → p.kind = none → q.kind = none →
    ((s.slot i).isLive = true → (s.slot i).track = (s.group g).track → i ∉ (s.group g).reserved →
      (s.group g).edits =
        [⟨i, some (s.slot i).revision, .update p⟩, ⟨i, some (s.slot i).revision, .update q⟩] →
      ∃ u, exec (.groupLaunch g.val 0) s = .next u ∧ (u.group g).last = .applied ∧
        (u.slot i).revision = nextRevision (nextRevision (s.slot i).revision) ∧
        (u.slot i).fields = q.apply (p.apply (s.slot i).fields) ∧ ∀ j, j ≠ i → u.slot j = s.slot j) ∧
    (∀ rev, (s.slot i).isLive = true → (s.slot i).track = (s.group g).track → i ∉ (s.group g).reserved →
      rev ≠ some (s.slot i).revision →
      (s.group g).edits = [⟨i, some (s.slot i).revision, .update p⟩, ⟨i, rev, .update q⟩] →
      ∃ u, exec (.groupLaunch g.val 0) s = .next u ∧ (u.group g).last = .rejected .stale 1 ∧ u.slot i = s.slot i) ∧
    (∀ f l rev, i ∈ (s.group g).reserved → (s.slot i).condition = .staged → ¬s.keyTaken f.key.toNat none → f.floated = true →
      (s.group g).edits = [⟨i, none, .create (s.group g).track none f l⟩, ⟨i, rev, .update q⟩] →
      (s.track (s.group g).track).onAir ≠ some i → (s.track (s.group g).track).ready ≠ some i →
      ∃ u, exec (.groupLaunch g.val 0) s = .next u ∧ (u.group g).last = .applied ∧ (u.slot i).condition = .live ∧
        (u.slot i).revision = nextRevision (s.slot i).revision ∧ (u.slot i).airing = (s.slot i).airing ∧
        (u.slot i).fields = q.apply f ∧ i ∈ u.order (s.group g).track)

/-- R36, with R32 to R35. The third stage of a take applies the groups of the track's armed queue one after another, from its head, each
carried out whole or rejected at its first failing edit. An item that the take has changed and no earlier group of the queue has since
is compared by the revision it held before the take. Every group of the queue ends IDLE and empty with its last result, the queue is
empty, GROUP_DONE is raised, and no other group is touched. The model's own readings (DEDUCED: notes/assumptions/14.md): that an item has
changed since the take is judged by its revision alone (Reference.For), and an edit whose item has been freed and used again by the other
track since it was staged is refused RANGE after its revision (the clause `reused` of State.Judges). -/
def Obligations.ArmedGroupsAreAppliedAtATake : Prop :=
  ∀ (s u : State) (t : Track) (pre : Bank 512 Item), u = s.applyArmed t pre →
    State.QueueApplied pre s.slots s (s.armedQueue t) u ∧
    (∀ g ∈ s.armedQueue t, ∃ last, u.group g =
      { s.group g with state := .idle, edits := [], reserved := [], reservedEntries := 0, last := last } ∧
      (last = .applied ∨ ∃ cause k, last = .rejected cause k ∧ k < (s.group g).edits.length)) ∧
    (∀ g, g ∉ s.armedQueue t → u.group g = s.group g) ∧
    ((∀ g ∈ s.armedQueue t, (s.group g).track = t) →
      u.armedQueue t = [] ∧ ∀ v, v ≠ t → u.armedQueue v = s.armedQueue v) ∧
    (s.armedQueue t ≠ [] → u.flags.get .groupDone = true) ∧ (s.armedQueue t = [] → u = s) ∧
    (s.setLooks u.looks).Aside u ∧ (∀ r, (s.look r).Keeps (u.look r)) ∧ s.flags.Within u.flags

/-! ### Takes and the on-air sequence (chapter 3) -/

/-- R46 to R48, R50. TRACK.TAKE is refused in lockout and then for want of a READY item; otherwise the READY item goes on air at
t + TD, the item on air becomes DONE with its actual and its completion handed over, its START-phase cues that wait abandoned and its
END-phase cues armed against t + TD, the START-phase cues of the item going on air are armed, the next candidate becomes READY, the
lockout starts and the track's TAKE event is raised. The model's own: that the answer's actual is the one stage 1 sets, even where a group
applied in the take retires or restores that item (DEDUCED: notes/assumptions/11.md), and the mark of a take made ahead of the
sequencer's frame work (notes/assumptions/3.md). -/
def Obligations.TrackTakePutsTheReadyItemOnAir : Prop :=
  ∀ (s : State) (t : Track), s.portFree →
    (∀ n, 2 ≤ n → exec (.trackTake n) s = .next (s.answeredWith 2 .range .empty)) ∧
    (0 < (s.track t).lockoutCount → exec (.trackTake (trackCode t)) s = .next (s.answeredWith 2 .tooSoon .empty)) ∧
    ((s.track t).lockoutCount = 0 → (s.track t).ready = none →
      exec (.trackTake (trackCode t)) s = .next (s.answeredWith 2 .noNext .empty)) ∧
    (∀ i, (s.track t).lockoutCount = 0 → (s.track t).ready = some i →
      ∃ u, exec (.trackTake (trackCode t)) s = .next u ∧ s.TookItem u t i (frameAdd s.sfc (s.track t).takeDelay) [] ∧
        s.Answers u 2 .ok
          (.taken ⟨some i, (u.slot i).start, (s.track t).onAir,
            (s.track t).onAir.map (fun o => (s.completionOf o (frameAdd s.sfc (s.track t).takeDelay)).actual),
            (u.track t).ready⟩))

/-- R54, with R5, R45 and R101. TRACK.SKIP makes the READY item SKIPPED with its revision advanced and its READY-phase cues that wait
abandoned, and chooses the next (its cues: ReadyChoiceTakesTheFirstCandidate); the item on air, the lockout and the order stay as they
are, and with no READY item it answers NO_NEXT. -/
def Obligations.TrackSkipPassesTheReadyItem : Prop :=
  ∀ (s : State) (t : Track), s.portFree →
    (∀ n, 2 ≤ n → exec (.trackSkip n) s = .next (s.answeredWith 2 .range .empty)) ∧
    ((s.track t).ready = none → exec (.trackSkip (trackCode t)) s = .next (s.answeredWith 2 .noNext .empty)) ∧
    (∀ i, (s.track t).ready = some i →
      ∃ u, exec (.trackSkip (trackCode t)) s = .next u ∧ (u.slot i).state = .skipped ∧
        Item.Alike { s.slot i with revision := nextRevision (s.slot i).revision } (u.slot i) ∧
        (u.slot i).airing = (s.slot i).airing ∧ u.orders = s.orders ∧ s.EditOf u t i ∧ u.looks = s.looks ∧
        (s.QueuesIdle → ∃ v, State.Skips { s with sdoStatus := u.sdoStatus, sdo := u.sdo } v i ∧
          u = { (v.setTrack t { s.track t with ready := none }).readyChoice t with buffer := u.buffer }) ∧
        (u.track t).ready = (u.candidates t).head? ∧ s.Answers u 2 .ok (.skipped i (u.track t).ready))

/-- R41 to R43, R77, R155, R163. TRACK.HOLD sets the host hold and answers the host, panel and effective hold. TRACK.CONFIG gives the
fields it names, held to their ranges, the hysteresis held to the band in force and a lockout count lowered to a new lockout, a
hard-out given where it was absent with the status at NONE, and answers the configuration. TRACK.READ answers the record, the holds, the
auto-take condition and frame, the status, U and the armed queue. Each refuses a code, a field set or a presence bit that is not defined,
and changes nothing else. The model's own readings: that the auto-take frame is absent with nothing on air or auto no, and that the
configuration TRACK.CONFIG answers is those six fields (notes/assumptions/11.md, DEDUCED); that the auto-take frame answered is that of the
take delay as the last frame event found it, since a new one acts on it from the next (R41; notes/assumptions/16.md, DEDUCED); that the presence bit of the hard-out is bit 0
(notes/assumptions/8.md, DEDUCED); that the status stands at NONE from the request that gives a hard-out where none was
(notes/assumptions/10.md, DEDUCED). -/
def Obligations.TrackRecordIsSetAndRead : Prop :=
  ∀ (s : State) (t : Track), s.portFree →
    (∀ v hold, yesNoOf v = some hold →
      exec (.trackHold (trackCode t) v) s =
        .next ((s.answeredWith 3 .ok (.hold hold (s.panelHold t) (hold || s.panelHold t))).setTrack t
          { s.track t with hostHold := hold })) ∧
    (∀ n v, 2 ≤ n ∨ 2 ≤ v → exec (.trackHold n v) s = .next (s.answeredWith 3 .range .empty)) ∧
    (∀ fields v (x : TrackRec), 0 < fields → fields < 32 → v.presence < 2 →
      x.takeDelay = (if fields.testBit 0 then min v.takeDelay 15 else (s.track t).takeDelay) →
      x.lockout = (if fields.testBit 1 then min v.lockout 255 else (s.track t).lockout) →
      x.band = (if fields.testBit 2 then min v.band 65535 else (s.track t).band) →
      x.hysteresis = min (if fields.testBit 3 then v.hysteresis else (s.track t).hysteresis) x.band →
      x.hardOut = (if fields.testBit 4 then (if v.presence = 1 then some (BitVec.ofNat 32 v.hardOut) else none)
        else (s.track t).hardOut) →
      x.lockoutCount =
        (if fields.testBit 1 then min (s.track t).lockoutCount x.lockout else (s.track t).lockoutCount) →
      x.hostHold = (s.track t).hostHold → x.onAir = (s.track t).onAir → x.ready = (s.track t).ready →
      x.lastTake = (s.track t).lastTake →
      exec (.trackConfig (trackCode t) fields v) s =
        .next (((s.answeredWith 14
          (okOr (decide ((fields.testBit 0 = true ∧ 15 < v.takeDelay) ∨ (fields.testBit 1 = true ∧ 255 < v.lockout) ∨
            (fields.testBit 2 = true ∧ 65535 < v.band) ∨
            x.band < if fields.testBit 3 then v.hysteresis else (s.track t).hysteresis)))
          (.trackConfig ⟨x.takeDelay, x.lockout, x.band, x.hysteresis, x.hardOut, x.hostHold⟩)).setTrack t x).setStatus t
          (if (s.track t).hardOut = none ∧ x.hardOut ≠ none then .none else s.statusOf t))) ∧
    (∀ n fields v, 2 ≤ n ∨ fields = 0 ∨ 32 ≤ fields ∨ 2 ≤ v.presence →
      exec (.trackConfig n fields v) s = .next (s.answeredWith 14 .range .empty)) ∧
    (∃ auto frame,
      exec (.trackRead (trackCode t)) s =
        .next (s.answeredWith 2 .ok (.trackRead ⟨s.track t, (s.input (match t with | .a => 2 | .b => 5)).active,
          (s.track t).hostHold || (s.input (match t with | .a => 2 | .b => 5)).active, auto, frame, s.statusOf t, s.overUnder t,
          s.armedQueue t⟩)) ∧
      ((s.track t).onAir = none → auto = .none ∧ frame = none) ∧
      (∀ o, (s.track t).onAir = some o → (s.slot o).fields.auto = false → auto = .none ∧ frame = none) ∧
      (∀ o start f, (s.track t).onAir = some o → (s.slot o).fields.auto = true → (s.slot o).start = some start →
        f = start + BitVec.ofNat 32 (s.base (s.slot o)) - BitVec.ofNat 32 (s.look t).takeDelay →
        frame = some f ∧ (s.reached f = false → auto = .pending) ∧
        (s.reached f = true →
          (s.effectiveHold t = true → auto = .waitingHold) ∧
          (s.effectiveHold t = false →
            (0 < (s.track t).lockoutCount → auto = .waitingLockout) ∧
            ((s.track t).lockoutCount = 0 → (s.track t).ready = none → auto = .waitingReady))))) ∧
    (∀ n, 2 ≤ n → exec (.trackRead n) s = .next (s.answeredWith 2 .range .empty))

/-- R55, R77, with R5, R6 and R7. TRACK.RESET withdraws the track's cues that are ARMED or QUEUED, returns every item of the track that is
READY, ON_AIR, DONE or SKIPPED to PLANNED with airing and revision advanced and its times absent, sets every cue of the track PENDING
and every cue fault to no, clears the pointers, the lockout and the status, with the TIMING event if the status was not NONE, discards
the track's groups and makes the READY choice, which advances the airing of the one item it chooses and may arm its READY-phase cues (its
cues: ReadyChoiceTakesTheFirstCandidate); the order, the configuration and the other track's items stay. An item it makes eligible is watched from the next frame
event on (R52; DEDUCED: notes/assumptions/16.md). The cues are told for a part
within its ranges, and the other track's cues, and the whole state the choice finds, where no READY channel has a cue queued. -/
def Obligations.TrackResetReturnsTheTrack : Prop :=
  ∀ (s : State) (t : Track), s.portFree → s.Sound →
    (∀ n, 2 ≤ n → exec (.trackReset n) s = .next (s.answeredWith 2 .range .empty)) ∧
    ∃ u, exec (.trackReset (trackCode t)) s = .next u ∧ u.orders = s.orders ∧
      u.track t = { s.track t with onAir := none, ready := (u.candidates t).head?, lockoutCount := 0, lastTake := none } ∧
      u.statusOf t = .none ∧ u.readsDone = s.readsDone ∧ (s.setLooks u.looks).Aside u ∧ s.flags.Within u.flags ∧
      u.looks = s.keepWatch.looks ∧ (∀ i, i ∉ s.candidates t → u.watchedHardIn t i = none) ∧
      s.Answers u 2 .ok (.trackReset (u.track t).ready) ∧
      (∀ v, v ≠ t → u.track v = s.track v ∧ u.statusOf v = s.statusOf v) ∧
      (∀ i, i ∈ s.order t → (s.slot i).state = .ready ∨ (s.slot i).state = .onAir ∨ (s.slot i).state = .done ∨
          (s.slot i).state = .skipped →
        Item.Alike { s.slot i with
          revision := nextRevision (s.slot i).revision, start := none, actual := none, prompterEnd := none } (u.slot i) ∧
        ((u.track t).ready ≠ some i →
          (u.slot i).state = .planned ∧ (u.slot i).airing = nextAiring (s.slot i).airing) ∧
        ((u.track t).ready = some i →
          (u.slot i).state = .ready ∧ (u.slot i).airing = nextAiring (nextAiring (s.slot i).airing))) ∧
      (∀ i, i ∈ s.order t → (s.slot i).state = .planned →
        (s.slot i).Alike (u.slot i) ∧
        ((u.track t).ready ≠ some i → (u.slot i).state = .planned ∧ (u.slot i).airing = (s.slot i).airing) ∧
        ((u.track t).ready = some i → (u.slot i).state = .ready ∧ (u.slot i).airing = nextAiring (s.slot i).airing)) ∧
      (∀ i v, v ≠ t → i ∈ s.order v →
        (s.slot i).Alike (u.slot i) ∧ (u.slot i).state = (s.slot i).state ∧ (u.slot i).airing = (s.slot i).airing ∧
        (s.QueuesIdle → u.slot i = s.slot i)) ∧
      (s.QueuesIdle → ∃ v, ({ s with sdoStatus := u.sdoStatus, sdo := u.sdo } : State).keepWatch.TrackReturned v t ∧
        u = { v.readyChoice t with buffer := u.buffer }) ∧
      (∀ g, (s.group g).track = t → (s.group g).state ≠ .idle →
        (u.group g).state = .idle ∧ (u.group g).edits = [] ∧ (u.group g).reserved = [] ∧ (u.group g).last = .none) ∧
      (∀ g, (s.group g).track ≠ t → u.group g = s.group g) ∧
      (s.statusOf t ≠ .none → u.flags.get (timingEvent t) = true) ∧
      (s.statusOf t = .none → u.flags.get (timingEvent t) = s.flags.get (timingEvent t)) ∧
      (s.InRange →
        (∀ i, i ∈ s.order t → (u.track t).ready ≠ some i →
          (u.slot i).cues = (s.slot i).cues.map (fun q => q.spec.fresh) ∧ (u.slot i).cueFault = false) ∧
        (∀ i, (u.track t).ready = some i → ∀ q ∈ (u.slot i).cues, q.spec.phase ≠ .ready → q = q.spec.fresh) ∧
        (∀ e ∈ u.firing, e.slot ∈ s.order t → (u.track t).ready ≠ some e.slot →
          ∀ q, s.cue? e.slot e.index = some q → q.state ≠ .armed) ∧
        (∀ c, ∀ x ∈ (u.channel c).queue, x.cue.slot ∈ s.order t → (u.track t).ready ≠ some x.cue.slot →
          ∀ q r, s.cue? x.cue.slot x.cue.index = some q → q.state = .queued → q.resolved = some r → r.delivery.channel ≠ c))

/-- R52, R53, with R14, R41 and R60. When the sequencer's frame work is due and items it watches are due, HARD_IN_TAKE takes the one
standing latest in the order, starting at the hard-in it is watched by, whatever the lockout and the hold; the READY and PLANNED items
before it become SKIPPED, and the cues of the items that leave and enter air are abandoned and armed as at any take. A lockout that runs out
at that frame event is part of the same frame work, and no auto-take is made at it. With none due nothing changes. What it watches is what
the frame event gave it: as the track stands, the items READY or eligible by their hard-ins. No command but a frame event or a reset of the
part gives it a hard-in, an item, a take delay or an auto-take to look at, nor moves the count by which they were reached, so that these act
from the next frame event; it goes on looking only at items still READY or eligible. That frame work still due belongs to the frame event
before the change is the model's reading (DEDUCED: notes/assumptions/16.md). -/
def Obligations.HardInTakeTakesTheLatestDueItem : Prop :=
  (∀ (s : State) (t : Track), s.held = false → .sequencer t ∈ s.due →
    (∀ i h before after, s.afterOnAir t = before ++ i :: after → i ∉ before →
      s.Watches t i h → s.reachedAtWork (frameSub h (s.look t).takeDelay) = true →
      (∀ j h', j ∈ after → s.Watches t j h' → s.reachedAtWork (frameSub h' (s.look t).takeDelay) = false) →
      (∃ u, exec (.hardInTake t) s = .next u ∧
        (s.cut.get t = false → (s.track t).lockoutCount = 1 → exec (.lockoutExpiry t) s = .next u) ∧
        (s.setDue (s.due.erase (.sequencer t))).TookItem u t i h
          (before.filter (fun j => decide ((s.slot j).state = .ready) || decide ((s.slot j).state = .planned)))) ∧
      exec (.autoTake t) s = .next s) ∧
    ((∀ j h', s.Watches t j h' → s.reachedAtWork (frameSub h' (s.look t).takeDelay) = false) →
      exec (.hardInTake t) s = .next s)) ∧
  (∀ (s : State) (t : Track), s.LooksAt t (s.look t) →
    ∀ i h, s.Watches t i h ↔ i ∈ s.candidates t ∧ (s.slot i).fields.hardIn = some h) ∧
  ∀ (c : Instr) (s u : State), (∀ dt e, c ≠ .refPulse dt e) → (∀ e, c ≠ .flywheelTick e) → (∀ e, c ≠ .referenceLoss e) →
    exec c s = .next u →
    (u.counted = s.counted ∧ ∀ t, (s.look t).Keeps (u.look t)) ∨ (u.counted = 0 ∧ u.looks = ⟨{}, {}⟩)

/-- R49, R51, R53, with R41, R42 and R68. When the sequencer's frame work is due and no hard-in is, AUTO_TAKE takes the READY item once the frame
S + base duration − TD is reached, with the effective hold off and the lockout count run out at this frame event; the want of any
of these holds it back. A new take delay, an auto set to yes, a host hold released and a count that TIME.SET has moved past the frame act
from the next frame event (HardInTakeTakesTheLatestDueItem; that frame work still due belongs to the one before is DEDUCED:
notes/assumptions/16.md). LOCKOUT_EXPIRY counts a lockout of 1 down to 0, and the frame work counts any other down by 1; where the frame
work in which the lockout runs out makes a hard-in or an auto-take, the two rows are that one frame work. Where a take
has been made since the frame event, the lockout it started is not counted in this frame work and no auto-take is made in it, so that
the next take waits L frame events (the mark is the model's own: notes/assumptions/3.md). -/
def Obligations.AutoTakeAndLockoutFollowTheFrameWork : Prop :=
  ∀ (s : State) (t : Track), s.held = false → .sequencer t ∈ s.due →
    (∀ j h, s.Watches t j h → s.reachedAtWork (frameSub h (s.look t).takeDelay) = true →
      s.cut.get t = false → (s.track t).lockoutCount = 1 →
      ∃ u, exec (.lockoutExpiry t) s = .next u ∧ exec (.hardInTake t) s = .next u ∧
        u = (s.setDue (s.due.erase (.sequencer t))).runWork (.sequencer t)) ∧
    ((∀ j h, s.Watches t j h → s.reachedAtWork (frameSub h (s.look t).takeDelay) = false) →
    (s.cut.get t = true →
      exec (.autoTake t) s = .next s ∧ exec (.lockoutExpiry t) s = .next s ∧
      s.runWork (.sequencer t) = s.setCut (s.cut.set t false)) ∧
    (∀ o r start, s.cut.get t = false → (s.track t).onAir = some o → (s.slot o).fields.auto = true → (s.slot o).start = some start →
      (s.look t).auto = true → (s.look t).hostHold = false →
      s.reachedAtWork (frameSub (frameAdd start (s.base (s.slot o))) (s.look t).takeDelay) = true → s.effectiveHold t = false →
      (s.track t).lockoutCount ≤ 1 → (s.track t).ready = some r →
      ∃ u, exec (.autoTake t) s = .next u ∧
        ((s.track t).lockoutCount = 1 → exec (.lockoutExpiry t) s = .next u) ∧
        (s.setDue (s.due.erase (.sequencer t))).TookItem u t r (frameAdd s.sfc (s.track t).takeDelay) []) ∧
    (s.cut.get t = false → (s.track t).onAir = none ∨ (∃ o, (s.track t).onAir = some o ∧ ((s.slot o).fields.auto = false ∨
          ∃ start, (s.slot o).start = some start ∧
            s.reachedAtWork (frameSub (frameAdd start (s.base (s.slot o))) (s.look t).takeDelay) = false)) ∨
        (s.look t).auto = false ∨ (s.look t).hostHold = true ∨ s.effectiveHold t = true ∨ 2 ≤ (s.track t).lockoutCount ∨ (s.track t).ready = none →
      exec (.autoTake t) s = .next s ∧
      s.runWork (.sequencer t) = s.setTrack t { s.track t with lockoutCount := (s.track t).lockoutCount - 1 } ∧
      ((s.track t).lockoutCount = 1 →
        exec (.lockoutExpiry t) s =
          .next ((s.setDue (s.due.erase (.sequencer t))).setTrack t { s.track t with lockoutCount := 0 }))))

/-- R57, R58. A panel input sampled at its debounced level has its count set to 0; sampled otherwise the count advances, and at the
debounce setting the level changes. PANEL_DEBOUNCE_EXPIRY is that change: a release, and either edge of a HOLD input, changes the
level alone; a press of TAKE, SKIP or CLEAR acts once on the state with the new level. A CLEAR press clears the fault flag and the
silent count of every channel that is not OFFLINE, and brings those FAULTED and RECOVERING to READY, which send the heads of their
queues (R135); the mark of a count begun ahead of the channel's own frame work is the model's (notes/assumptions/3.md). -/
def Obligations.PanelInputsAreDebounced : Prop :=
  ∀ (s : State) (i : PanelInput),
    ((s.input i).raw = (s.input i).active → s.runWork (.panel i) = s.setInput i { s.input i with count := 0 }) ∧
    ((s.input i).raw ≠ (s.input i).active → (s.input i).count + 1 < s.debounce →
      s.runWork (.panel i) = s.setInput i { s.input i with count := (s.input i).count + 1 }) ∧
    (s.held = false → .panel i ∈ s.due → (s.input i).raw ≠ (s.input i).active → s.debounce ≤ (s.input i).count + 1 →
      ∃ u w, exec (.panelDebounceExpiry i) s = .next u ∧
        w = (s.setDue (s.due.erase (.panel i))).setInput i { s.input i with active := (s.input i).raw, count := 0 } ∧
        ((s.input i).raw = false ∨ i = 2 ∨ i = 5 → u = w) ∧
        ((s.input i).raw = true →
          (∀ t : Track, i = (match t with | .a => 0 | .b => 3) →
            (0 < (s.track t).lockoutCount ∨ (s.track t).ready = none → u = w) ∧
            (∀ r, (s.track t).lockoutCount = 0 → (s.track t).ready = some r →
              w.TookItem u t r (frameAdd s.sfc (s.track t).takeDelay) [])) ∧
          (∀ t : Track, i = (match t with | .a => 1 | .b => 4) →
            ((s.track t).ready = none → u = w) ∧
            (∀ r, (s.track t).ready = some r → (u.slot r).state = .skipped ∧
              (u.slot r).revision = nextRevision (s.slot r).revision ∧ w.EditOf u t r ∧ u.looks = s.looks ∧
              (s.QueuesIdle → ∃ v, w.Skips v r ∧ u = (v.setTrack t { s.track t with ready := none }).readyChoice t) ∧
              (u.track t).ready = (u.candidates t).head?)) ∧
          (i = 6 →
            u = { w with slots := u.slots, channels := u.channels, cuesDone := u.cuesDone, deviceTx := u.deviceTx } ∧
            ∀ c x, x = s.channel c →
              (x.state = .offline → u.channel c = x) ∧
              (x.state = .ready ∨ x.state = .busy ∨ x.state = .guard →
                u.channel c = { x with faultFlag := false, silent := 0 }) ∧
              (x.state = .faulted ∨ x.state = .recovering →
                (x.queue = [] → u.channel c = { x with faultFlag := false, silent := 0, state := .ready, recovery := 0 }) ∧
                (∀ q rest, x.queue = q :: rest → q.runs →
                  u.channel c = { x with
                    faultFlag := false, silent := 0, state := .busy, recovery := 0, queue := rest, tag := x.tag + 1
                    begun := decide (.channel c ∈ s.due)
                    command := some ⟨q.cue, q.track, q.action, q.param, q.mode, q.dwell, q.answerTimeout, q.guard, x.tag + 1,
                      s.sfc, 0⟩ } ∧
                  u.tx (.device c) = (s.tx (.device c)).push (.command (x.tag + 1) q.action q.param q.track) ∧
                  ∀ z, u.cue? q.cue.slot q.cue.index = some z → z.state = .sent))))) ∧
    (s.held = false → (s.input i).raw = (s.input i).active ∨ (s.input i).count + 1 < s.debounce →
      exec (.panelDebounceExpiry i) s = .next s)

/-! ### Time base and back-timing (chapter 4) -/

/-- R68, R69. TIME.SET replaces the SFC and answers the count before and after; TIME.READ answers the SFC, the reference state, the
frame rate and, in FLYWHEEL, the qualifying count. Neither changes anything else. -/
def Obligations.TimeRequestsSetAndReadTheCount : Prop :=
  ∀ s : State, s.portFree →
    (∀ v, v < 2 ^ 32 →
      ∃ u, exec (.timeSet v) s = .next u ∧ u.sfc.toNat = v ∧
        u = { s.answeredWith 5 .ok (.timeSet s.sfc u.sfc) with sfc := u.sfc }) ∧
    (s.reference = .flywheel →
      exec .timeRead s = .next (s.answeredWith 1 .ok (.timeRead s.sfc .flywheel s.frameRate (some s.qualifying)))) ∧
    (s.reference = .locked → exec .timeRead s = .next (s.answeredWith 1 .ok (.timeRead s.sfc .locked s.frameRate none)))

/-- R62, R65, R66. In FLYWHEEL the flywheel tick counts one frame, a nominal period after the timer's start, and the timer runs
again from it. In LOCKED the loss of the reference, 1.25 periods after the last frame event, counts one frame as the first tick,
leaves FLYWHEEL with the qualifying count 0 and raises REFERENCE. Neither falls in the other state. At the frame event the blocks' work
left over is done first and every completion learnt from (R90), then the frame is counted and the work named in the command done, in its
order; which of a block's work is named and which is left to later commands is the model's (DESIGN CHOICE: notes/assumptions/3.md). -/
def Obligations.OwnFrameEventsCountOneFrame : Prop :=
  ∀ (s : State) (e : FrameEvent), s.held = false →
    (s.reference = .flywheel →
      (∃ u, exec (.flywheelTick e) s = .next u ∧ s.FrameCounted u e ∧
        u.timeBase = (.flywheel, s.qualifying, 0, s.sincePulse + (s.period - s.sinceTimer), true)) ∧
      exec (.referenceLoss e) s = .next s) ∧
    (s.reference = .locked →
      (∃ u, exec (.referenceLoss e) s = .next u ∧ s.FrameCounted u e ∧ u.flags.get .reference = true ∧
        u.timeBase = (.flywheel, 0, 0, s.sincePulse + (5 * s.frameRate.quarter - s.sinceFrame), true)) ∧
      exec (.flywheelTick e) s = .next s)

/-- R65, R66. A pulse with no event of the time base's own before it counts one frame if half a nominal period or more has passed
since the last frame event, and none otherwise. In LOCKED a pulse that counts none is disregarded. In FLYWHEEL it is then
disregarded after a pulse's frame event, which sets the qualifying count to 0, and restarts the timer after a tick; a pulse not
disregarded starts or continues a run, and the fourth of a run relocks and raises REFERENCE. That a pulse at the very moment of a tick or
of a loss comes before it is the model's choice (DESIGN CHOICE: notes/assumptions/6.md); the blocks' work at the frame event is as in
OwnFrameEventsCountOneFrame (notes/assumptions/3.md). -/
def Obligations.PulseCountsAtMostOneFrame : Prop :=
  ∀ (s : State) (dt : Nat) (e : FrameEvent), s.held = false → dt ≤ s.untilOwn →
    (s.reference = .locked →
      (2 * s.frameRate.quarter ≤ s.sinceFrame + dt →
        ∃ u, exec (.refPulse dt e) s = .next u ∧ s.FrameCounted u e ∧
          u.timeBase = (.locked, s.qualifying, s.sinceTimer + dt, 0, false)) ∧
      (s.sinceFrame + dt < 2 * s.frameRate.quarter →
        exec (.refPulse dt e) s =
          .next { s with
            sinceFrame := s.sinceFrame + dt, sinceTimer := s.sinceTimer + dt, sincePulse := s.sincePulse + dt })) ∧
    (s.reference = .flywheel → ∀ run,
      (run = if s.qualifying ≠ 0 ∧ 3 * s.frameRate.quarter ≤ s.sincePulse + dt ∧
          s.sincePulse + dt ≤ 5 * s.frameRate.quarter then s.qualifying + 1 else 1) →
      (2 * s.frameRate.quarter ≤ s.sinceFrame + dt →
        ∃ u, exec (.refPulse dt e) s = .next u ∧ s.FrameCounted u e ∧
          (run < 4 → u.timeBase = (.flywheel, run, 0, 0, false)) ∧
          (4 ≤ run → u.timeBase = (.locked, 0, 0, 0, false) ∧ u.flags.get .reference = true)) ∧
      (s.sinceFrame + dt < 2 * s.frameRate.quarter → s.lastTick = true →
        ∃ u, exec (.refPulse dt e) s = .next u ∧
          u = { s with
            reference := u.reference, qualifying := u.qualifying, sinceFrame := s.sinceFrame + dt, sinceTimer := 0
            sincePulse := 0, flags := u.flags } ∧
          (run < 4 → u.reference = .flywheel ∧ u.qualifying = run ∧ u.flags = s.flags) ∧
          (4 ≤ run → u.reference = .locked ∧ u.qualifying = 0 ∧ u.flags = s.flags.put .reference)) ∧
      (s.sinceFrame + dt < 2 * s.frameRate.quarter → s.lastTick = false →
        exec (.refPulse dt e) s =
          .next { s with
            sinceFrame := s.sinceFrame + dt, sinceTimer := s.sinceTimer + dt, sincePulse := s.sincePulse + dt
            qualifying := 0 }))

/-- R65, R66. A pulse that comes later than the time base's own next event finds that event made: the tick in FLYWHEEL, the loss in
LOCKED. That the event so made samples the panel levels as they were last sampled, and has every block's work done in it, is the model's
choice (DESIGN CHOICE: notes/assumptions/6.md). -/
def Obligations.LatePulseFindsTheOwnEventMade : Prop :=
  ∀ (s : State) (dt : Nat) (e : FrameEvent), s.held = false → s.untilOwn < dt →
    ∃ u, (s.reference = .flywheel → exec (.flywheelTick s.sameEvent) s = .next u) ∧
      (s.reference = .locked → exec (.referenceLoss s.sameEvent) s = .next u) ∧
      (∀ i, s.sameEvent.raw.getLsbD i.val = (s.input i).raw) ∧ (∀ w, w ∈ s.sameEvent.now) ∧
      exec (.refPulse dt e) s = exec (.refPulse (dt - s.untilOwn) e) u

/-- R76. The status evaluation moves a track's status by the table: NONE without a hard-out; with one, by U against the band and the
hysteresis. A change raises the track's TIMING event, and nothing else changes. -/
def Obligations.OverUnderStatusFollowsTheTable : Prop :=
  ∀ (s : State) (t : Track) (after : Status),
    ((s.track t).hardOut = none → after = .none) →
    (∀ u, s.overUnder t = some u →
      (u > (s.track t).band → after = .overTime) ∧ (u < -((s.track t).band : Int) → after = .underTime) ∧
      (-((s.track t).band : Int) ≤ u → u ≤ (s.track t).band →
        (s.statusOf t = .none ∨ s.statusOf t = .onTime → after = .onTime) ∧
        (s.statusOf t = .overTime → after = if u ≤ ((s.track t).band : Int) - (s.track t).hysteresis then .onTime else .overTime) ∧
        (s.statusOf t = .underTime →
          after = if -((s.track t).band : Int) + (s.track t).hysteresis ≤ u then .onTime else .underTime))) →
    (after = s.statusOf t → s.runWork (.status t) = s) ∧
    (after ≠ s.statusOf t → s.runWork (.status t) = (s.setStatus t after).raise (timingEvent t))

/-- R70 to R72. The estimate, base duration and working duration of an item by its kind, timed field, presenter and state; the
elapsed of an ON_AIR item is SFC − S held to 0 to 16,777,215. -/
def Obligations.DurationsFollowTheRecord : Prop :=
  ∀ (s : State) (i : Slot) (x : Item), x = s.slot i →
    (x.fields.kind ≠ .read → (s.derived i).estimate = none) ∧
    (x.fields.kind = .read → x.fields.presenter = none → (s.derived i).estimate = some x.fields.planned) ∧
    (∀ p, x.fields.kind = .read → x.fields.presenter = some p →
      (s.derived i).estimate = some ((x.fields.words * (s.presenter p).rate + 128) / 256)) ∧
    (x.fields.kind ≠ .read ∨ x.fields.timed = true → (s.derived i).base = some x.fields.planned) ∧
    (x.fields.kind = .read → x.fields.timed = false → (s.derived i).base = (s.derived i).estimate) ∧
    (x.state = .ready ∨ x.state = .planned → (s.derived i).working = (s.derived i).base) ∧
    (x.state = .done → (s.derived i).working = x.actual) ∧ (x.state = .skipped → (s.derived i).working = none) ∧
    (∀ start base, x.state = .onAir → x.start = some start → (s.derived i).base = some base →
      (s.derived i).working = some (max base (min 16777215 (frameDiff s.sfc start).toNat)))

/-- R73, R74. The projection of a track is its ON_AIR item and its candidates in order, laid end to end from the start S, or from
SFC + TD with nothing on air; a later item with a hard-in is pinned to it and shows the gap. Its end less the hard-out is U, and
the back time of a projected item is F − U; an item not projected has neither F, B nor G. -/
def Obligations.ProjectionLaysItemsEndToEnd : Prop :=
  ∀ (s : State) (t : Track),
    ((s.projection t).map Projected.slot = (s.track t).onAir.toList ++ s.candidates t) ∧
    (∀ o start, (s.track t).onAir = some o → (s.slot o).start = some start →
      (s.projection t).head? = some ⟨o, start, (s.working (s.slot o)).getD 0, none⟩) ∧
    (∀ p rest, (s.track t).onAir = none → s.projection t = p :: rest →
      p.working = (s.working (s.slot p.slot)).getD 0 ∧
      ((s.slot p.slot).fields.hardIn = none → p.front = frameAdd s.sfc (s.track t).takeDelay ∧ p.gap = none) ∧
      (∀ h, (s.slot p.slot).fields.hardIn = some h →
        p.front = h ∧ p.gap = some (frameDiff h (frameAdd s.sfc (s.track t).takeDelay)))) ∧
    (∀ before p q rest, s.projection t = before ++ p :: q :: rest →
      q.working = (s.working (s.slot q.slot)).getD 0 ∧
      ((s.slot q.slot).fields.hardIn = none → q.front = frameAdd p.front p.working ∧ q.gap = none) ∧
      (∀ h, (s.slot q.slot).fields.hardIn = some h →
        q.front = h ∧ q.gap = some (frameDiff h (frameAdd p.front p.working)))) ∧
    (s.projection t = [] → s.projectedEnd t = s.sfc) ∧
    (∀ before p, s.projection t = before ++ [p] → s.projectedEnd t = frameAdd p.front p.working) ∧
    ((s.track t).hardOut = none → s.overUnder t = none) ∧
    (∀ h, (s.track t).hardOut = some h → s.overUnder t = some (frameDiff (s.projectedEnd t) h)) ∧
    (∀ p, ((s.projection t).map Projected.slot).Nodup → p ∈ s.projection t → (s.slot p.slot).track = t →
      (s.derived p.slot).front = some p.front ∧ (s.derived p.slot).gap = p.gap ∧
      (s.overUnder t = none → (s.derived p.slot).back = none) ∧
      (∀ u, s.overUnder t = some u → (s.derived p.slot).back = some (p.front - BitVec.ofInt 32 u))) ∧
    (∀ i, (s.slot i).track = t → i ∉ (s.projection t).map Projected.slot →
      (s.derived i).front = none ∧ (s.derived i).back = none ∧ (s.derived i).gap = none)

/-! ### Presenter positions and read-rate learning (chapter 5) -/

/-- R87 to R89, with R138, R141, R155 and R163. PRESENTER.CONFIG gives the fields it names, held to their ranges, the fast shift held to
the slow shift in force, and marks the light whose shown pattern took a different count; rate, outlier count and last sample stay.
PRESENTER.SEED sets the rate, held to 64 to 16,383, and the outlier count to 0; PRESENTER.READ answers the record and the estimate for 100
words. Each refuses a position, or a field set or a bit of the flags byte that is not defined (R163, *Undefined bits*), and changes
nothing else. That enabled and learn are bits 0 and 1 of a flags byte is the model's reading (DEDUCED and DESIGN CHOICE:
notes/assumptions/1.md), and that each of the six counts has a bit of the field set, 8 to 13, the lit and then the dark count of each
pattern in turn, is the model's choice (DESIGN CHOICE: notes/assumptions/8.md). -/
def Obligations.PresenterRequestsSetAndRead : Prop :=
  ∀ (s : State) (p : Pos) (fields : Nat) (v : PresenterSettings) (x : Presenter), s.portFree →
    (0 < fields → fields < 16384 → v.flags < 4 →
      x.enabled = (if fields.testBit 0 then v.flags.testBit 0 else (s.presenter p).enabled) →
      x.learn = (if fields.testBit 1 then v.flags.testBit 1 else (s.presenter p).learn) →
      x.slowShift = (if fields.testBit 2 then max 1 (min 7 v.slowShift) else (s.presenter p).slowShift) →
      x.fastShift = min (if fields.testBit 3 then v.fastShift else (s.presenter p).fastShift) x.slowShift →
      x.fastBound = (if fields.testBit 4 then min v.fastBound 16383 else (s.presenter p).fastBound) →
      x.haltBand = (if fields.testBit 5 then min v.haltBand 16383 else (s.presenter p).haltBand) →
      x.minWords = (if fields.testBit 6 then max 1 (min 4095 v.minWords) else (s.presenter p).minWords) →
      x.wrap = (if fields.testBit 7 then min v.wrap 65535 else (s.presenter p).wrap) →
      x.standby.lit = (if fields.testBit 8 then min v.standbyLit 255 else (s.presenter p).standby.lit) →
      x.standby.dark = (if fields.testBit 9 then min v.standbyDark 255 else (s.presenter p).standby.dark) →
      x.onAir.lit = (if fields.testBit 10 then min v.onAirLit 255 else (s.presenter p).onAir.lit) →
      x.onAir.dark = (if fields.testBit 11 then min v.onAirDark 255 else (s.presenter p).onAir.dark) →
      x.wrapping.lit = (if fields.testBit 12 then min v.wrapLit 255 else (s.presenter p).wrapping.lit) →
      x.wrapping.dark = (if fields.testBit 13 then min v.wrapDark 255 else (s.presenter p).wrapping.dark) →
      x.rate = (s.presenter p).rate → x.outliers = (s.presenter p).outliers → x.last = (s.presenter p).last →
      exec (.presenterConfig p.val fields v) s =
        .next (((s.answeredWith 21
          (okOr (decide ((fields.testBit 2 = true ∧ (v.slowShift = 0 ∨ 7 < v.slowShift)) ∨
            x.slowShift < (if fields.testBit 3 then v.fastShift else (s.presenter p).fastShift) ∨
            (fields.testBit 4 = true ∧ 16383 < v.fastBound) ∨ (fields.testBit 5 = true ∧ 16383 < v.haltBand) ∨
            (fields.testBit 6 = true ∧ (v.minWords = 0 ∨ 4095 < v.minWords)) ∨ (fields.testBit 7 = true ∧ 65535 < v.wrap) ∨
            (fields.testBit 8 = true ∧ 255 < v.standbyLit) ∨ (fields.testBit 9 = true ∧ 255 < v.standbyDark) ∨
            (fields.testBit 10 = true ∧ 255 < v.onAirLit) ∨ (fields.testBit 11 = true ∧ 255 < v.onAirDark) ∨
            (fields.testBit 12 = true ∧ 255 < v.wrapLit) ∨ (fields.testBit 13 = true ∧ 255 < v.wrapDark))))
          (.presenterConfig x)).setPresenter p x).setLight p
          { s.light p with
            changed := (s.light p).changed ||
              decide ((s.presenter p).pattern (s.light p).shown ≠ x.pattern (s.light p).shown) })) ∧
    (∀ n, 8 ≤ n ∨ fields = 0 ∨ 16384 ≤ fields ∨ 4 ≤ v.flags →
      exec (.presenterConfig n fields v) s = .next (s.answeredWith 21 .range .empty)) ∧
    (∀ rate r, r = max 64 (min 16383 rate) →
      exec (.presenterSeed p.val rate) s =
        .next ((s.answeredWith 4 (okOr (decide (rate < 64 ∨ 16383 < rate))) (.seeded r 0)).setPresenter p
          { s.presenter p with rate := r, outliers := 0 })) ∧
    (exec (.presenterRead p.val) s =
      .next (s.answeredWith 2 .ok (.presenterRead (s.presenter p) ((100 * (s.presenter p).rate + 128) / 256)))) ∧
    (∀ n rate, 8 ≤ n → exec (.presenterSeed n rate) s = .next (s.answeredWith 4 .range .empty) ∧
      exec (.presenterRead n) s = .next (s.answeredWith 2 .range .empty))

/-- R81 to R86. The completion at the head of the list is taken. Without the six conditions of a sample nothing else changes; with
them the sample rate is the measurement per word in 1/256 frame, halves up, held to 64 to 16,383; a difference beyond a halt band
is held, or at the third in a row reseeds the rate and raises RATE_RESEED; any other moves the rate toward the sample by the
rounded step; and the last sample records it. -/
def Obligations.CompletionLearnsFromItsSample : Prop :=
  ∀ (s : State) (d : ReadDone) (rest : List ReadDone) (kind : MeasureKind) (m : Nat), s.held = false →
    s.readsDone = d :: rest →
    (kind = .prompter ∧ (∃ e, d.prompterEnd = some e ∧ 1 ≤ frameDiff e d.start ∧ frameDiff e d.start ≤ d.actual ∧
        (m : Int) = frameDiff e d.start) ∨
      kind = .actual ∧ m = d.actual ∧
        ∀ e, d.prompterEnd = some e → ¬(1 ≤ frameDiff e d.start ∧ frameDiff e d.start ≤ d.actual)) →
    (d.presenter = none → exec .presenterCompletion s = .next (s.setReadsDone rest)) ∧
    ∀ p, d.presenter = some p →
      (d.kind ≠ .read ∨ (s.presenter p).enabled = false ∨ (s.presenter p).learn = false ∨ d.words < (s.presenter p).minWords ∨
          m = 0 ∨ (d.timed = true ∧ kind ≠ .prompter) →
        exec .presenterCompletion s = .next (s.setReadsDone rest)) ∧
      (∀ r δ, d.kind = .read → (s.presenter p).enabled = true → (s.presenter p).learn = true →
        (s.presenter p).minWords ≤ d.words → 1 ≤ m → (d.timed = true → kind = .prompter) →
        r = max 64 (min 16383 ((m * 256 + d.words / 2) / d.words)) → δ = (r : Int) - (s.presenter p).rate →
        ((s.presenter p).haltBand = 0 ∨ δ.natAbs ≤ (s.presenter p).haltBand → ∀ k step after : Nat,
          k = (if (s.presenter p).fastBound < δ.natAbs then (s.presenter p).fastShift else (s.presenter p).slowShift) →
          step = (if k = 0 then δ.natAbs else (δ.natAbs + 2 ^ (k - 1)) / 2 ^ k) →
          (after : Int) = max 64 (min 16383 (if 0 < δ then ((s.presenter p).rate : Int) + step else (s.presenter p).rate - step)) →
          exec .presenterCompletion s =
            .next ((s.setReadsDone rest).setPresenter p { s.presenter p with
              rate := after, outliers := 0
              last := some ⟨d.item, d.track, kind, m, d.words, r, δ, some k, .learned, after⟩ })) ∧
        ((s.presenter p).haltBand ≠ 0 → (s.presenter p).haltBand < δ.natAbs → (s.presenter p).outliers < 2 →
          exec .presenterCompletion s =
            .next ((s.setReadsDone rest).setPresenter p { s.presenter p with
              outliers := (s.presenter p).outliers + 1
              last := some ⟨d.item, d.track, kind, m, d.words, r, δ, none, .held, (s.presenter p).rate⟩ })) ∧
        ((s.presenter p).haltBand ≠ 0 → (s.presenter p).haltBand < δ.natAbs → (s.presenter p).outliers = 2 →
          exec .presenterCompletion s =
            .next (((s.setReadsDone rest).setPresenter p { s.presenter p with
              rate := r, outliers := 0
              last := some ⟨d.item, d.track, kind, m, d.words, r, δ, none, .reseed, r⟩ }).raise .rateReseed)))

/-! ### Cue lists and cue firing (chapter 6) -/

/-- R93 to R95, R98. A PENDING cue of the phase being armed is resolved by the route table: unresolved it is FAILED UNROUTED;
resolved it is ARMED with its copy and its fire frame, which is the nominal frame, or the arming frame with the lateness marked
where that has passed, and it joins the firing list before the first entry it precedes. Any other cue is left as it is. Where the signed
difference does not order the fire frames of the list, that place is the model's choice (DESIGN CHOICE: notes/assumptions/10.md). -/
def Obligations.ArmedCuesTakeTheirFireFrame : Prop :=
  ∀ (s : State) (ph : Phase) (base : Frame) (i : Slot) (k : Nat) (q : Cue), s.cue? i k = some q →
    (q.spec.phase ≠ ph ∨ q.state ≠ .pending → State.armCue ph base i s k = s) ∧
    (q.spec.phase = ph → q.state = .pending →
      (s.resolve q.spec.target q.spec.action (s.slot i).track = none →
        s.FailedCue (State.armCue ph base i s k) i k .unrouted) ∧
      (∀ r nominal armed, s.resolve q.spec.target q.spec.action (s.slot i).track = some r →
        (ph = .ready → nominal = s.sfc) →
        (ph = .start → nominal = base + BitVec.ofNat 32 q.spec.offset - BitVec.ofNat 32 r.delivery.preroll) →
        (ph = .ending → nominal = base - BitVec.ofNat 32 r.delivery.preroll) →
        (armed = if frameDiff nominal s.sfc < 0 then
          { q with
            state := .armed, resolved := some r, fire := some s.sfc, lateFired := true
            lateness := min 255 (s.sfc - nominal).toNat }
          else { q with state := .armed, resolved := some r, fire := some nominal, lateFired := false, lateness := 0 }) →
        ∃ u before after e, State.armCue ph base i s k = u ∧ u.cue? i k = some armed ∧
          (∀ l, l ≠ k → u.cue? i l = s.cue? i l) ∧ (∀ j, j ≠ i → u.slot j = s.slot j) ∧
          u.slot i = { s.slot i with cues := (u.slot i).cues } ∧ u = { s with slots := u.slots, firing := u.firing } ∧
          armed.fire = some e.fire ∧ e.slot = i ∧ e.index = k ∧
          s.firing = before ++ after ∧ u.firing = before ++ e :: after ∧ (∀ y ∈ before, e.before y = false) ∧
          (∀ y, after.head? = some y → e.before y = true)))

/-- R94, R98, R100, R101. Once a phase of an item has been armed, no cue of that phase is PENDING, and no cue armed with it whose fire
frame is reached waits in the firing list: its cues are armed one by one in list order (each: ArmedCuesTakeTheirFireFrame), and then those
whose fire frame is reached are offered in the order of the firing list (each: OfferIsDecidedByTheChannel); that all are armed before the
first is offered is the model's reading (DEDUCED: notes/assumptions/10.md). An ARMED cue that is abandoned leaves that list, a QUEUED one
its channel's queue, and any other cue is left as it is; the cues of an item that a test selects are abandoned together, so told where no
READY channel has a cue queued. -/
def Obligations.ArmingOffersAndAbandonmentWithdraws : Prop :=
  (∀ (s : State) (ph : Phase) (base : Frame) (i : Slot),
    (∀ q ∈ ((s.armPhase ph base i).slot i).cues, q.spec.phase = ph → q.state ≠ .pending) ∧
    (∀ e ∈ (s.armPhase ph base i).firing, e ∈ s.firing ∨ s.reached e.fire = false) ∧
    ∃ v, State.CuesArmed ph base i s (List.range (s.slot i).cues.length) v ∧
      v.Offered (v.firing.filter (fun e => decide (e ∉ s.firing) && s.reached e.fire)) (s.armPhase ph base i)) ∧
  (∀ (s : State) (i : Slot) (k : Nat) (q : Cue), s.cue? i k = some q →
    (q.state = .armed →
      s.MovedCue (State.abandonCue i s k) i k .abandoned ∧
      State.abandonCue i s k =
        { s with
          slots := (State.abandonCue i s k).slots
          firing := s.firing.filter (fun e => !(decide (e.slot = i) && decide (e.index = k))) }) ∧
    (∀ r, q.state = .queued → q.resolved = some r → (s.channel r.delivery.channel).state ≠ .ready →
      s.MovedCue (State.abandonCue i s k) i k .abandoned ∧
      State.abandonCue i s k =
        { s.setChannel r.delivery.channel { s.channel r.delivery.channel with
            queue := (s.channel r.delivery.channel).queue.filter
              (fun x => !(decide (x.cue.slot = i) && decide (x.cue.index = k))) } with
          slots := (State.abandonCue i s k).slots }) ∧
    (q.state ≠ .armed → q.state ≠ .queued → State.abandonCue i s k = s)) ∧
  ∀ (s : State) (i : Slot) (which : Cue → Bool), s.QueuesIdle → s.Abandoned (s.abandon i which) i which

/-- R98, R99, R118 to R121. An offer takes the cue out of the firing list. Its channel refuses it, in this order, for kind NONE, an
action its kind does not allow, a latched fault and a full queue, and the cue is FAILED with that cause; or accepts it at its place
by fire frame, and an idle channel sends it at once. Where the signed difference does not order the fire frames of the queue, before the
first later one is the model's choice of place (DESIGN CHOICE: notes/assumptions/10.md), and the mark of a count that begins ahead of the
channel's own frame work is the model's (notes/assumptions/3.md). -/
def Obligations.OfferIsDecidedByTheChannel : Prop :=
  ∀ (s w : State) (e : Firing) (q : Cue) (r : Resolved) (x : Channel), s.cue? e.slot e.index = some q → q.resolved = some r →
    x = s.channel r.delivery.channel →
    w = { s with firing := s.firing.filter (fun y => !(decide (y.slot = e.slot) && decide (y.index = e.index))) } →
    (x.kind = .none → w.FailedCue (s.offer e) e.slot e.index .offline) ∧
    (x.kind ≠ .none →
      (q.spec.action ∉ (match x.kind with
          | .none => []
          | .clip => [Action.load, .play, .stop]
          | .gfx => [.load, .in_, .out]
          | .audio => [.load, .play, .stop]
          | .aux => [.pulse]) →
        w.FailedCue (s.offer e) e.slot e.index .kind) ∧
      (x.kind.allows q.spec.action = true →
        (x.state = .faulted → x.faultMode = .latch → w.FailedCue (s.offer e) e.slot e.index .channelFault) ∧
        (¬(x.state = .faulted ∧ x.faultMode = .latch) →
          (8 ≤ x.queue.length → w.FailedCue (s.offer e) e.slot e.index .queueFull) ∧
          (∀ y : Queued, y = ⟨⟨e.slot, (s.slot e.slot).airing, e.index⟩, (s.slot e.slot).track, q.spec.action, q.spec.param,
              e.fire, r.delivery.mode, r.delivery.dwell, r.delivery.answerTimeout, r.delivery.guard, r.delivery.tolerance⟩ →
            (x.queue.length < 8 → x.state ≠ .ready →
              ∃ before after, x.queue = before ++ after ∧ (∀ z ∈ before, frameDiff z.fire e.fire ≤ 0) ∧
                (∀ z, after.head? = some z → 0 < frameDiff z.fire e.fire) ∧ w.MovedCue (s.offer e) e.slot e.index .queued ∧
                s.offer e =
                  { w.setChannel r.delivery.channel { x with queue := before ++ y :: after } with
                    slots := (s.offer e).slots }) ∧
            (x.queue = [] → x.state = .ready →
              (y.runs → w.SentFrom (s.offer e) r.delivery.channel y []) ∧
              (¬y.runs → ∃ v k, w.SentFrom v r.delivery.channel y [] ∧ (v.channel r.delivery.channel).command = some k ∧
                s.offer e = v.commandEnded r.delivery.channel k .done))))))

/-- R98, R103, R104. CUE_OFFER takes the completions left in the list, from its head, and then offers every cue of the firing list whose
fire frame is reached, one after another in list order (each: OfferIsDecidedByTheChannel), and with none reached changes nothing. A cue
whose fire frame a TIME.SET has moved the count past since the frame event stands ARMED until the next (R68; that frame work still due
belongs to the frame event before is DEDUCED: notes/assumptions/16.md).
CUE_COMPLETION takes the completion at the head of the list: with the slot live, the airing the item's own and the cue SENT it gives the
cue the outcome, and otherwise it is orphaned and changes nothing more. -/
def Obligations.SchedulerOffersAndTakesCompletions : Prop :=
  ∀ s : State, s.held = false →
    (.scheduler ∈ s.due →
      ((∀ e ∈ s.firing, s.reachedAtWork e.fire = false) → exec .cueOffer s = .next s) ∧
      ((∃ e ∈ s.firing, s.reachedAtWork e.fire = true) →
        ∃ u, exec .cueOffer s = .next u ∧ (∀ e ∈ u.firing, e ∈ s.firing ∧ s.reachedAtWork e.fire = false) ∧
          u.due = s.due.erase .scheduler ∧ (s.setDue u.due).Aside u ∧ u.tracks = s.tracks ∧ u.orders = s.orders ∧
          s.flags.Within u.flags ∧ (∀ i, (s.slot i).Alike (u.slot i)) ∧
          ∃ v, (s.setDue u.due).CompletionsTaken v ∧ v.Offered (s.firing.filter (fun e => s.reachedAtWork e.fire)) u) ∧
      (∀ e rest, s.cuesDone = [] → s.firing = e :: rest → s.reachedAtWork e.fire = true → (∀ y ∈ rest, s.reachedAtWork y.fire = false) →
        exec .cueOffer s = .next ((s.setDue (s.due.erase .scheduler)).offer e))) ∧
    (s.cuesDone = [] → exec .cueCompletion s = .next s) ∧
    (∀ d rest, s.cuesDone = d :: rest →
      (∀ q, (s.slot d.cue.slot).isLive = true → (s.slot d.cue.slot).airing = d.cue.airing →
        s.cue? d.cue.slot d.cue.index = some q → q.state = .sent →
        ∃ u, exec .cueCompletion s = .next u ∧
          (d.outcome = .done → (s.setCuesDone rest).MovedCue u d.cue.slot d.cue.index .done ∧
            u = { s.setCuesDone rest with slots := u.slots }) ∧
          (∀ cause, d.outcome = .failed cause → (s.setCuesDone rest).FailedCue u d.cue.slot d.cue.index cause)) ∧
      ((s.slot d.cue.slot).isLive = false ∨ (s.slot d.cue.slot).airing ≠ d.cue.airing ∨
          (∀ q, s.cue? d.cue.slot d.cue.index = some q → q.state ≠ .sent) →
        exec .cueCompletion s = .next (s.setCuesDone rest)))

/-! ### Target routing (chapter 7) -/

/-- R115, by the match of R108 and the search of R109. ROUTE.TEST answers the first enabled entry, in ascending order, that matches the
target and permits the track and the action, or else the enabled default route, or else that none resolves it, with the lowest entry that
matched and was passed over; an arming meets the same resolution, and nothing changes. -/
def Obligations.RouteTestAnswersTheFirstEntryThatServes : Prop :=
  ∀ (s : State) (target : Word16) (a : Action) (t : Track), s.portFree →
    (∀ (found : Option Resolved) (passed : Option RouteNo),
      (∀ n, (s.route n).serves target a t → (∀ m, m < n → ¬(s.route m).serves target a t) →
        found = some ⟨.entry n, (s.route n).delivery⟩ ∧
        ∀ m, passed = some m ↔ m < n ∧ (s.route m).enabled = true ∧ (s.route m).hits target ∧
          ∀ l, l < m → ¬((s.route l).enabled = true ∧ (s.route l).hits target)) →
      ((∀ n, ¬(s.route n).serves target a t) →
        (s.defaultRoute.enabled = true → found = some ⟨.default, s.defaultRoute.delivery⟩) ∧
        (s.defaultRoute.enabled = false → found = none) ∧
        ∀ m, passed = some m ↔ (s.route m).enabled = true ∧ (s.route m).hits target ∧
          ∀ l, l < m → ¬((s.route l).enabled = true ∧ (s.route l).hits target)) →
      exec (.routeTest target.toNat a.code (trackCode t)) s = .next (s.answeredWith 5 .ok (.routeTest found passed)) ∧
      s.resolve target a t = found) ∧
    (∀ x n m, 6 ≤ n ∨ 2 ≤ m → exec (.routeTest x n m) s = .next (s.answeredWith 5 .range .empty))

/-- R111, R112, R114, R163. ROUTE.WRITE gives the fields it names, its delivery fields held to their ranges, clears GLOBAL when it
names entry 0's mask, and answers the entry and the flag; ROUTE.READ answers an entry, or DEFAULT. Both refuse what their rules
say and change nothing else. GLOBAL is set by a part reset, with entry 0's mask, and is cleared by no command but an accepted
ROUTE.WRITE of entry 0 that names the mask; no command but a reset sets it. A write of any bytes is the command it spells. A bit of a
subset byte that is not defined refuses the request whatever the field set names (R163, *Undefined bits*). The model's own: that a code is
looked at only where the field set names its field (DEDUCED: notes/assumptions/8.md), and that ROUTE.WRITE's answer carries the flag for
every entry, clear for entries 1 to 15 (DESIGN CHOICE: notes/assumptions/11.md). -/
def Obligations.RouteWriteAndRead : Prop :=
  (∀ (c : Instr) (s t : State), exec c s = .next t → c.spelled.isReset = false →
    t.isGlobal = s.isGlobal ∨
      (t.isGlobal = false ∧ s.portFree ∧ ∃ fields v, c.spelled = .routeWrite 0 fields v ∧ fields.testBit 2 = true)) ∧
  (∀ s t : State, exec .powerOn s = .next t ∨ exec .rstAssert s = .next t ∨ (s.held = true ∧ exec .rstRelease s = .next t) ∨
      (s.portFree ∧ exec .partReset s = .next t) →
    t.isGlobal = true ∧ (t.route 0).mask = 0xFFFF#16) ∧
  ∀ (s : State) (n : RouteNo) (fields : Nat) (v : RouteSettings) (x : Route), s.portFree →
    (0 < fields → fields < 4096 → ¬deliveryBad v.delivery fields 5 → (fields.testBit 0 = true → v.enabled < 2) →
      v.tracks < 4 → v.actions < 64 →
      x.enabled = (if fields.testBit 0 then decide (v.enabled = 1) else (s.route n).enabled) →
      x.base = (if fields.testBit 1 then BitVec.ofNat 16 v.base else (s.route n).base) →
      x.mask = (if fields.testBit 2 then BitVec.ofNat 16 v.mask else (s.route n).mask) →
      x.tracks = (if fields.testBit 3 then BitVec.ofNat 2 v.tracks else (s.route n).tracks) →
      x.actions = (if fields.testBit 4 then BitVec.ofNat 6 v.actions else (s.route n).actions) →
      x.delivery.GivenBy (s.route n).delivery v.delivery fields 5 →
      ∃ u, exec (.routeWrite n.val fields v) s = .next u ∧
        u.isGlobal = (s.isGlobal && !(decide (n = 0) && fields.testBit 2)) ∧
        u = { (s.answeredWith 21 (okOr (decide (deliveryClamps v.delivery fields 5)))
                (.route x (decide (n = 0) && u.isGlobal))).setRoute n x with isGlobal := u.isGlobal }) ∧
    (∀ m, 16 ≤ m ∨ fields = 0 ∨ 4096 ≤ fields ∨ deliveryBad v.delivery fields 5 ∨
        (fields.testBit 0 = true ∧ 2 ≤ v.enabled) ∨ 4 ≤ v.tracks ∨ 64 ≤ v.actions →
      exec (.routeWrite m fields v) s = .next (s.answeredWith 21 .range .empty)) ∧
    exec (.routeRead n.val) s = .next (s.answeredWith 2 .ok (.route (s.route n) (decide (n = 0) && s.isGlobal))) ∧
    exec (.routeRead 16) s = .next (s.answeredWith 2 .ok (.defaultRoute s.defaultRoute)) ∧
    (∀ m, 16 < m → exec (.routeRead m) s = .next (s.answeredWith 2 .range .empty))

/-! ### Device channels (chapter 8) -/

/-- R134, with R155. CHANNEL.CONFIG gives the fields it names, held to their ranges. Kind NONE takes a channel OFFLINE, failing its
command and its queue OFFLINE; another kind brings an OFFLINE channel to READY, and leaves the state of any other; LATCH on a
FAULTED channel fails its queue CHANNEL_FAULT; a recovery count is lowered to a new retry interval. It answers the record without
its queue, refuses what its rule says, and changes nothing else: no item without a cue in the queue, and no other channel. With kind
NONE and mode LATCH named together on a FAULTED channel, the queue fails OFFLINE, for the kind is given first
(notes/assumptions/10.md, DEDUCED); and that an undefined kind or fault mode code in a field the field set does not name is disregarded is
the model's reading (DEDUCED: notes/assumptions/8.md). -/
def Obligations.ChannelConfigSetsTheNamedFields : Prop :=
  ∀ (s : State) (c : Chan) (fields : Nat) (v : ChannelSettings) (x : Channel), s.portFree → x = s.channel c →
    (∀ n, 12 ≤ n ∨ fields = 0 ∨ 32 ≤ fields ∨ (fields.testBit 0 = true ∧ 5 ≤ v.kind) ∨
        (fields.testBit 1 = true ∧ 4 ≤ v.faultMode) →
      exec (.channelConfig n fields v) s = .next (s.answeredWith 11 .range .empty)) ∧
    (∀ kind mode, 0 < fields → fields < 32 →
      (if fields.testBit 0 then channelKindOf v.kind = some kind else kind = x.kind) →
      (if fields.testBit 1 then faultModeOf v.faultMode = some mode else mode = x.faultMode) →
      ∃ u y, exec (.channelConfig c.val fields v) s = .next u ∧ y = u.channel c ∧
        s.Answers u 11 (okOr (decide ((fields.testBit 2 = true ∧ 255 < v.pollInterval) ∨
          (fields.testBit 3 = true ∧ 1023 < v.silentLimit) ∨
          (fields.testBit 4 = true ∧ (v.retryInterval = 0 ∨ 1023 < v.retryInterval))))) (.channelConfig { y with queue := [], begun := false }) ∧
        u = { s with
          slots := u.slots, channels := u.channels, cuesDone := u.cuesDone, flags := u.flags, sdoStatus := u.sdoStatus
          sdo := u.sdo, buffer := u.buffer } ∧
        (∀ d, d ≠ c → u.channel d = s.channel d) ∧ (∀ i, (∀ q ∈ x.queue, q.cue.slot ≠ i) → u.slot i = s.slot i) ∧
        (∀ i, (s.slot i).Alike (u.slot i)) ∧ (u.flags = s.flags ∨ u.flags = s.flags.put .cueFail) ∧
        y.kind = kind ∧ y.faultMode = mode ∧ y.tag = x.tag ∧ y.faultCause = x.faultCause ∧ y.begun = x.begun ∧
        y.pollInterval = (if fields.testBit 2 then min v.pollInterval 255 else x.pollInterval) ∧
        y.silentLimit = (if fields.testBit 3 then min v.silentLimit 1023 else x.silentLimit) ∧
        y.retryInterval = (if fields.testBit 4 then max 1 (min v.retryInterval 1023) else x.retryInterval) ∧
        (fields.testBit 0 = true → kind = .none → x.state ≠ .offline →
          y.state = .offline ∧ y.command = none ∧ y.queue = [] ∧ y.faultFlag = false ∧ y.silent = 0 ∧ y.poll = 0 ∧ y.guard = 0 ∧
          y.recovery = 0 ∧ u.cuesDone = s.cuesDone ++ (x.command.map (fun k => ⟨k.cue, .failed .offline⟩)).toList ∧
          ∀ q ∈ x.queue, ∀ z, u.cue? q.cue.slot q.cue.index = some z → z.state = .failed ∧ z.failCause = some .offline) ∧
        (¬(fields.testBit 0 = true ∧ kind = .none ∧ x.state ≠ .offline) →
          y.command = x.command ∧ y.guard = x.guard ∧ u.cuesDone = s.cuesDone ∧
          y.recovery =
            (if fields.testBit 4 then min x.recovery (max 1 (min v.retryInterval 1023)) else x.recovery) ∧
          (fields.testBit 0 = true → kind ≠ .none → x.state = .offline →
            y.state = .ready ∧ y.silent = 0 ∧ y.poll = 0 ∧ y.faultFlag = false) ∧
          (¬(fields.testBit 0 = true ∧ kind ≠ .none ∧ x.state = .offline) →
            y.state = x.state ∧ y.silent = x.silent ∧ y.poll = x.poll ∧ y.faultFlag = x.faultFlag) ∧
          (fields.testBit 1 = true → mode = .latch → x.state = .faulted →
            y.queue = [] ∧
            ∀ q ∈ x.queue, ∀ z, u.cue? q.cue.slot q.cue.index = some z →
              z.state = .failed ∧ z.failCause = some .channelFault) ∧
          (¬(fields.testBit 1 = true ∧ mode = .latch ∧ x.state = .faulted) →
            y.queue = x.queue ∧ u.slots = s.slots ∧ u.flags = s.flags)))

/-- R135, R136, with R121. CHANNEL.CLEAR clears the fault flag and the silent count, and brings a FAULTED or RECOVERING channel to READY,
which sends the head of its queue, and the next after one done at its send; the mark of a count that begins ahead of the channel's own
frame work is the model's (notes/assumptions/3.md). An OFFLINE channel stays as it is. CHANNEL.READ answers the record, of the command in
the slot and of each queued cue what R136 lists, and changes nothing. -/
def Obligations.ChannelClearAndRead : Prop :=
  ∀ (s : State) (c : Chan) (x : Channel), s.portFree → x = s.channel c →
    (x.state = .offline → exec (.channelClear c.val) s = .next (s.answeredWith 2 .ok (.channelCleared .offline))) ∧
    (x.state = .ready ∨ x.state = .busy ∨ x.state = .guard →
      exec (.channelClear c.val) s =
        .next ((s.answeredWith 2 .ok (.channelCleared x.state)).setChannel c { x with faultFlag := false, silent := 0 })) ∧
    (x.state = .faulted ∨ x.state = .recovering →
      (x.queue = [] →
        exec (.channelClear c.val) s =
          .next ((s.answeredWith 2 .ok (.channelCleared .ready)).setChannel c
            { x with faultFlag := false, silent := 0, state := .ready, recovery := 0 })) ∧
      (∀ q rest, x.queue = q :: rest → q.runs →
        ∃ u, exec (.channelClear c.val) s = .next u ∧
          ((s.answeredWith 2 .ok (.channelCleared .busy)).setChannel c
            { x with faultFlag := false, silent := 0, state := .ready, recovery := 0 }).SentFrom u c q rest) ∧
      (∃ u, exec (.channelClear c.val) s = .next u ∧
        State.Granted c ((s.answeredWith 2 .ok (.channelCleared (u.channel c).state)).setChannel c
          { x with faultFlag := false, silent := 0, state := .ready, recovery := 0 }) u)) ∧
    exec (.channelRead c.val) s =
      .next (s.answeredWith 2 .ok (.channelRead ⟨x.kind, x.state, x.faultMode, x.pollInterval, x.silentLimit, x.retryInterval,
        x.faultFlag, x.faultCause, x.tag,
        x.command.map (fun k => ⟨k.cue, k.track, k.action, k.param, k.mode, k.tag, k.sendFrame, k.busy⟩),
        x.queue.map (fun q => ⟨q.cue, q.track, q.action, q.fire⟩), x.silent, x.poll, x.guard, x.recovery⟩)) ∧
    (∀ n, 12 ≤ n → exec (.channelClear n) s = .next (s.answeredWith 2 .range .empty) ∧
      exec (.channelRead n) s = .next (s.answeredWith 2 .range .empty))

/-- R124 to R126, R129. A whole valid frame from a device is heard on a channel that is not OFFLINE. ACCEPT with the slot's tag ends
an ANSWER or EARLY command DONE and leaves a TIMED one; REFUSE with it ends any command FAILED REFUSED; with another tag, or
nothing sent, neither does more. STATUS ERROR enters a DEVICE_ERROR fault but in FAULTED; any other STATUS or frame is heard
alone. An OFFLINE channel discards them all. The end of a command is told with the sends that follow it. The mark of a count that begins
ahead of the channel's own frame work is the model's (notes/assumptions/3.md). -/
def Obligations.DeviceFramesActOnTheCommand : Prop :=
  ∀ (s : State) (c : Chan) (x : Channel), s.held = false → s.rx (.device c) = .hunting → x = s.channel c →
    (x.state = .offline → ∀ b type payload, incomingSize (.device c) type = none → payload.length < 256 →
      exec (.accept c b) s = .next s ∧ exec (.refuse c b) s = .next s ∧ exec (.status c b) s = .next s ∧
      exec (.deviceFrameOther c type payload) s = .next s) ∧
    (x.state ≠ .offline → ∀ w, w = s.setChannel c { x with silent := 0 } →
      (∀ k tag, x.state = .busy → x.command = some k → tag = k.tag.setWidth 8 →
        (k.mode = .timed → exec (.accept c tag) s = .next w) ∧
        (k.mode ≠ .timed → ∃ u, exec (.accept c tag) s = .next u ∧ w.EndsCommand u c k .done) ∧
        (∃ u, exec (.refuse c tag) s = .next u ∧ w.EndsCommand u c k (.failed .refused))) ∧
      (∀ tag, x.state ≠ .busy ∨ (∀ k, x.command = some k → tag ≠ k.tag.setWidth 8) →
        exec (.accept c tag) s = .next w ∧ exec (.refuse c tag) s = .next w) ∧
      (∀ value, value ≠ 2 ∨ x.state = .faulted → exec (.status c value) s = .next w) ∧
      (x.state ≠ .faulted →
        ∃ u, exec (.status c 2) s = .next u ∧ w.FaultEntered u c .deviceError .channelFault) ∧
      (∀ type payload, incomingSize (.device c) type = none → payload.length < 256 →
        exec (.deviceFrameOther c type payload) s = .next w))

/-- R122, R124, R125, R129. When a channel's frame work is due, it counts one more frame event since the send of the command in its slot,
but not the very frame event of a send that came ahead of it. DWELL_EXPIRY ends a TIMED or EARLY command whose dwell the count reaches,
DONE with its guard, and ANSWER_TIMEOUT an ANSWER command whose timeout it reaches, FAILED TIMEOUT by the fault mode's own way; before
either is reached neither row changes anything. Each does the seven steps of the frame work, whatever is queued and whatever silence or
polls are counted (State.ChannelWorked); the whole next state is told for a channel with nothing queued and neither a silence fault nor a
POLL to come. The mark of a count that began ahead of the frame work is the model's (DESIGN CHOICE: notes/assumptions/3.md). -/
def Obligations.CommandTimersEndTheCommand : Prop :=
  ∀ (s : State) (c : Chan) (x : Channel) (k : Command), s.held = false → .channel c ∈ s.due → x = s.channel c →
    x.state = .busy → x.command = some k →
    ((x.begun = true ∨ k.mode = .answer ∨ k.busy + 1 < k.dwell) → exec (.dwellExpiry c) s = .next s) ∧
    ((x.begun = true ∨ k.mode ≠ .answer ∨ k.busy + 1 < k.answerTimeout) → exec (.answerTimeout c) s = .next s) ∧
    (x.begun = false → k.mode ≠ .answer → k.dwell ≤ k.busy + 1 →
      ∃ u, exec (.dwellExpiry c) s = .next u ∧ (s.setDue (s.due.erase (.channel c))).ChannelWorked u c) ∧
    (x.begun = false → k.mode = .answer → k.answerTimeout ≤ k.busy + 1 →
      ∃ u, exec (.answerTimeout c) s = .next u ∧ (s.setDue (s.due.erase (.channel c))).ChannelWorked u c) ∧
    (x.queue = [] → x.silentLimit = 0 ∨ (x.silent + 1 < x.silentLimit ∧ 1 < x.silentLimit ∧ x.silent < 1023) →
      x.pollInterval = 0 → ∀ w after, w = s.setDue (s.due.erase (.channel c)) →
      after = (if k.guard = 0 then ChannelState.ready else .guard) → ∀ mark, mark = decide (k.guard ≠ 0 ∧ .channel c ∈ w.due) →
      (x.begun = true →
        s.runWork (.channel c) = s.setChannel c { x with begun := false, silent := min 1023 (x.silent + 1) }) ∧
      (x.begun = false → (k.mode ≠ .answer → k.busy + 1 < k.dwell) → (k.mode = .answer → k.busy + 1 < k.answerTimeout) →
        s.runWork (.channel c) = s.setChannel c { x with
          command := some { k with busy := k.busy + 1 }, silent := min 1023 (x.silent + 1) }) ∧
      (x.begun = false → k.mode ≠ .answer → k.dwell ≤ k.busy + 1 →
        exec (.dwellExpiry c) s =
          .next ((w.setChannel c { x with
            command := none, state := after, guard := if k.guard = 0 then x.guard else k.guard, begun := mark
            silent := min 1023 (x.silent + 1) }).setCuesDone (s.cuesDone ++ [⟨k.cue, .done⟩]))) ∧
      (x.begun = false → k.mode = .answer → k.answerTimeout ≤ k.busy + 1 → ∀ y,
        y = { x with command := none, faultFlag := true, faultCause := some .timeout, silent := 0 } →
        (x.faultMode = .latch →
          exec (.answerTimeout c) s =
            .next (((w.setChannel c { y with state := .faulted, guard := 0 }).setCuesDone
              (s.cuesDone ++ [⟨k.cue, .failed .timeout⟩])).raise .channelFault)) ∧
        (x.faultMode = .retry →
          exec (.answerTimeout c) s =
            .next (((w.setChannel c { y with
              state := .recovering, guard := 0, recovery := x.retryInterval, begun := decide (.channel c ∈ w.due) }).setCuesDone
              (s.cuesDone ++ [⟨k.cue, .failed .timeout⟩])).raise .channelFault)) ∧
        (x.faultMode = .report →
          exec (.answerTimeout c) s =
            .next (((w.setChannel c { y with
              state := after, guard := if k.guard = 0 then x.guard else k.guard, silent := 1, begun := mark }).setCuesDone
              (s.cuesDone ++ [⟨k.cue, .failed .timeout⟩])).raise .channelFault)) ∧
        (x.faultMode = .ignore →
          exec (.answerTimeout c) s =
            .next ((w.setChannel c { y with
              faultFlag := x.faultFlag, faultCause := x.faultCause
              state := after, guard := if k.guard = 0 then x.guard else k.guard, silent := 1, begun := mark }).setCuesDone
              (s.cuesDone ++ [⟨k.cue, .failed .timeout⟩])))))

/-- R121 to R123, R127, R128, R131. A channel's frame work is the seven steps of R122 in their order (State.ChannelWorked), and a row of
the table does it when what the row names occurs in it, and changes nothing otherwise. Its counts are also told one by one: queued cues
past their tolerance fail LATE; a guard and a recovery end at their last frame, the channel is READY and sends the head of its queue, and
the next after one done at its send; a guard of g frames ends at the g-th frame event after it began, so that one begun ahead of the frame
work of its own frame event is not counted in it; the silent count reaching its limit, be it at 1,023 already, enters a SILENT fault, and
a channel it leaves READY polls on; a READY channel whose poll count reaches its interval sends a POLL. The mark of a count that began
ahead of the frame work is the model's (DESIGN CHOICE: notes/assumptions/3.md). -/
def Obligations.ChannelCountsRunOut : Prop :=
  (∀ (s : State) (c : Chan), s.ChannelWorked (s.runWork (.channel c)) c) ∧
  ∀ (s w : State) (c : Chan) (x : Channel), s.held = false → .channel c ∈ s.due → x = s.channel c →
    w = s.setDue (s.due.erase (.channel c)) →
    (∀ i ∈ [Instr.cueAgedLate c, .dwellExpiry c, .answerTimeout c, .guardExpiry c, .recoveryExpiry c, .silentFault c, .poll c],
      exec i s = .next s ∨ ∃ u, exec i s = .next u ∧ w.ChannelWorked u c) ∧
    (x.begun = false → x.state = .guard → x.guard ≤ 1 → ∃ u, exec (.guardExpiry c) s = .next u ∧ w.ChannelWorked u c) ∧
    (x.begun = false → x.state = .recovering → x.recovery ≤ 1 →
      ∃ u, exec (.recoveryExpiry c) s = .next u ∧ w.ChannelWorked u c) ∧
    (x.state = .ready ∧ x.queue = [] ∨
        x.state = .busy ∧ (∀ k, x.command = some k → x.begun = true ∨
          (k.mode ≠ .answer → k.busy + 1 < k.dwell) ∧ (k.mode = .answer → k.busy + 1 < k.answerTimeout)) ∨
        x.state = .guard ∧ (x.begun = true ∨ 1 < x.guard) →
      x.silentLimit ≠ 0 → x.silentLimit ≤ min 1023 (x.silent + 1) →
      ∃ u, exec (.silentFault c) s = .next u ∧ w.ChannelWorked u c) ∧
    (x.silentLimit = 0 → exec (.silentFault c) s = .next s) ∧ (x.pollInterval = 0 → exec (.poll c) s = .next s) ∧
    (x.state ≠ .offline → (∃ q ∈ x.queue, (q.tolerance : Int) < frameDiff s.sfc q.fire) →
      (∀ q ∈ x.queue, ∀ p ∈ x.queue, (q.tolerance : Int) < frameDiff s.sfc q.fire →
        ¬((p.tolerance : Int) < frameDiff s.sfc p.fire) → q.cue.slot ≠ p.cue.slot ∨ q.cue.index ≠ p.cue.index) →
      ∃ u, exec (.cueAgedLate c) s = .next u ∧ w.Aside u ∧ w.ChannelWorked u c ∧
        (∀ q ∈ (u.channel c).queue, q ∈ x.queue ∧ frameDiff s.sfc q.fire ≤ q.tolerance) ∧
        (∀ q ∈ x.queue, (q.tolerance : Int) < frameDiff s.sfc q.fire → ∀ z, u.cue? q.cue.slot q.cue.index = some z →
          z.state = .failed ∧ z.failCause = some .late) ∧
        (x.state = .faulted →
          u.channel c = { x with
            queue := x.queue.filter (fun q => decide (frameDiff s.sfc q.fire ≤ q.tolerance)), begun := false })) ∧
    ((∀ q ∈ x.queue, frameDiff s.sfc q.fire ≤ q.tolerance) → exec (.cueAgedLate c) s = .next s) ∧
    ((∀ q ∈ x.queue, frameDiff s.sfc q.fire ≤ q.tolerance) → x.silentLimit = 0 → x.pollInterval = 0 →
      (x.begun = false → x.state = .guard ∧ x.guard ≤ 1 ∨ x.state = .recovering ∧ x.recovery ≤ 1 → ∀ y,
        y = { x with
          state := .ready, guard := if x.state = .guard then 0 else x.guard
          recovery := if x.state = .recovering then 0 else x.recovery } →
        ∃ u, (x.state = .guard → exec (.guardExpiry c) s = .next u) ∧
          (x.state = .recovering → exec (.recoveryExpiry c) s = .next u) ∧
          (x.queue = [] → u = w.setChannel c { y with silent := min 1023 (x.silent + 1) }) ∧
          (∀ q rest, x.queue = q :: rest → q.runs →
            ∃ v, (w.setChannel c y).SentFrom v c q rest ∧
              u = v.setChannel c { v.channel c with silent := min 1023 (x.silent + 1) }) ∧
          (∃ v, State.Granted c (w.setChannel c y) v ∧
            u = v.setChannel c { v.channel c with silent := min 1023 (x.silent + 1) })) ∧
      (x.begun = true → x.state = .guard →
        exec (.guardExpiry c) s = .next s ∧
        s.runWork (.channel c) = s.setChannel c { x with begun := false, silent := min 1023 (x.silent + 1) }) ∧
      (x.begun = true → x.state = .recovering →
        exec (.recoveryExpiry c) s = .next s ∧ s.runWork (.channel c) = s.setChannel c { x with begun := false }) ∧
      (x.begun = false → x.state = .guard → 1 < x.guard →
        exec (.guardExpiry c) s = .next s ∧
        s.runWork (.channel c) = s.setChannel c { x with guard := x.guard - 1, silent := min 1023 (x.silent + 1) }) ∧
      (x.begun = false → x.state = .recovering → 1 < x.recovery →
        exec (.recoveryExpiry c) s = .next s ∧
        s.runWork (.channel c) = s.setChannel c { x with recovery := x.recovery - 1 })) ∧
    (x.state = .ready → x.queue = [] → x.command = none →
      (x.silentLimit ≠ 0 → x.silentLimit ≤ min 1023 (x.silent + 1) →
        ∃ v u, exec (.silentFault c) s = .next u ∧
          (w.setChannel c { x with begun := false }).FaultEntered v c .silent .channelFault ∧ v.PollCounted u c) ∧
      (x.silentLimit = 0 ∨ min 1023 (x.silent + 1) < x.silentLimit →
        exec (.silentFault c) s = .next s ∧
        (x.pollInterval ≠ 0 → x.pollInterval ≤ x.poll + 1 →
          exec (.poll c) s =
            .next ((w.setChannel c { x with begun := false, silent := min 1023 (x.silent + 1), poll := 0 }).emit (.device c)
              .poll)) ∧
        (x.pollInterval = 0 ∨ x.poll + 1 < x.pollInterval → exec (.poll c) s = .next s)))

/-! ### Cue lights, presenter displays and the prompter (chapter 9) -/

/-- R139, R141. The outputs' frame work derives each position's light state: OFF when it is disabled; WRAP, or else ON_AIR, when an
ON_AIR item names it, by its remaining frames against the wrap threshold; STANDBY when a READY item does; OFF otherwise. A new
state, or a marked pattern, starts the phase at 0, another light's phase goes round its pattern's period, and the output follows
the pattern. -/
def Obligations.LightsFollowTheirStatesAndPatterns : Prop :=
  ∀ (s u : State) (p : Pos) (shown : LightState) (pattern : Option Pattern), u = s.runWork .outputs →
    ((s.presenter p).enabled = false → shown = .off) →
    ((s.presenter p).enabled = true →
      ((∃ t o, (s.track t).onAir = some o ∧ (s.slot o).fields.presenter = some p ∧
          s.remaining (s.slot o) ≤ (s.presenter p).wrap) → shown = .wrap) ∧
      ((∃ t o, (s.track t).onAir = some o ∧ (s.slot o).fields.presenter = some p) →
        (∀ t o, (s.track t).onAir = some o → (s.slot o).fields.presenter = some p →
          (s.presenter p).wrap < s.remaining (s.slot o)) → shown = .onAir) ∧
      ((∀ t o, (s.track t).onAir = some o → (s.slot o).fields.presenter ≠ some p) →
        ((∃ t r, (s.track t).ready = some r ∧ (s.slot r).fields.presenter = some p) → shown = .standby) ∧
        ((∀ t r, (s.track t).ready = some r → (s.slot r).fields.presenter ≠ some p) → shown = .off))) →
    (pattern = match shown with
      | .off => none
      | .standby => some (s.presenter p).standby
      | .onAir => some (s.presenter p).onAir
      | .wrap => some (s.presenter p).wrapping) →
    (u.light p).shown = shown ∧ (u.light p).changed = false ∧
    (shown ≠ (s.light p).shown ∨ (s.light p).changed = true → (u.light p).phase = 0) ∧
    (shown = (s.light p).shown → (s.light p).changed = false →
      (pattern = none → (u.light p).phase = 0) ∧
      (∀ q, pattern = some q →
        ((s.light p).phase + 1 < q.lit + q.dark → (u.light p).phase = (s.light p).phase + 1) ∧
        (q.lit + q.dark ≤ (s.light p).phase + 1 → (u.light p).phase = 0))) ∧
    (pattern = none → (u.light p).lit = false) ∧
    (∀ q, pattern = some q →
      (q.dark = 0 → (u.light p).lit = true) ∧ (q.lit = 0 → 0 < q.dark → (u.light p).lit = false) ∧
      (0 < q.lit → 0 < q.dark → (u.light p).lit = decide ((u.light p).phase < q.lit))) ∧
    (∀ o start, (s.slot o).state = .onAir → (s.slot o).start = some start →
      s.working (s.slot o) = some (s.remaining (s.slot o) + min 16777215 (frameDiff s.sfc start).toNat))

/-- R140, R143, R144. After the lights, one DISPLAY frame goes out for the first enabled position from the rotation index on, with
its light state, its countdown and the frame rate, and the index moves past it; with none enabled the index stays. The countdown
is the fewest remaining frames, or F − SFC of the READY item whose F is earliest, Track A's where they are equal, held to 0 to
16,777,215. Only lights, index and display link change. For two front times exactly 2^31 frames apart, of which neither is earlier, Track
B's is the model's choice (notes/assumptions/15.md). -/
def Obligations.DisplayRotationSendsOneFrame : Prop :=
  ∀ s u : State, u = s.runWork .outputs →
    u = { s with lights := u.lights, rotation := u.rotation, displayTx := u.displayTx } ∧
    ((∀ p, (s.presenter p).enabled = false) → u.rotation = s.rotation ∧ u.displayTx = s.displayTx) ∧
    (∀ n : Pos, (s.presenter (s.rotation + n)).enabled = true →
      (∀ m, m < n → (s.presenter (s.rotation + m)).enabled = false) →
      u.rotation = s.rotation + n + 1 ∧
      ∃ count, u.displayTx =
          s.displayTx.push (.display (s.rotation + n) (u.light (s.rotation + n)).shown count s.frameRate) ∧
        ((u.light (s.rotation + n)).shown = .off → count = 0) ∧
        ((u.light (s.rotation + n)).shown = .onAir ∨ (u.light (s.rotation + n)).shown = .wrap →
          ∃ t o, (s.track t).onAir = some o ∧ (s.slot o).fields.presenter = some (s.rotation + n) ∧
            count = min 16777215 (s.remaining (s.slot o)) ∧
            ∀ v x, (s.track v).onAir = some x → (s.slot x).fields.presenter = some (s.rotation + n) →
              s.remaining (s.slot o) ≤ s.remaining (s.slot x)) ∧
        (∀ t r front, (u.light (s.rotation + n)).shown = .standby → (s.track t).ready = some r →
          (s.slot r).fields.presenter = some (s.rotation + n) → (s.slot r).track = t →
          (∀ v x, v ≠ t → (s.track v).ready = some x → (s.slot x).fields.presenter ≠ some (s.rotation + n)) →
          (s.derived r).front = some front → count = min 16777215 (frameDiff front s.sfc).toNat) ∧
        (∀ ra rb fa fb, (u.light (s.rotation + n)).shown = .standby → (s.track .a).ready = some ra → (s.track .b).ready = some rb →
          (s.slot ra).fields.presenter = some (s.rotation + n) → (s.slot rb).fields.presenter = some (s.rotation + n) →
          (s.slot ra).track = .a → (s.slot rb).track = .b → (s.derived ra).front = some fa → (s.derived rb).front = some fb →
          count = min 16777215 (frameDiff (if frameDiff fb fa < 0 then fb else fa) s.sfc).toNat))

/-- R147. An END report, whole and valid, sets the prompter end of the ON_AIR item of the track it names to the SFC, when the item
carries its script and the prompter end is absent; in every other case it changes nothing. -/
def Obligations.EndReportSetsThePrompterEnd : Prop :=
  ∀ (s : State) (script : Word32) (track : Byte), s.held = false → s.rx .prompter = .hunting →
    (∀ t o, track.toNat = trackCode t → (s.track t).onAir = some o → (s.slot o).fields.script = some script →
      (s.slot o).prompterEnd = none →
      exec (.endReport script track) s = .next (s.setSlot o { s.slot o with prompterEnd := some s.sfc })) ∧
    ((∀ t o, track.toNat = trackCode t → (s.track t).onAir = some o →
        (s.slot o).fields.script ≠ some script ∨ (s.slot o).prompterEnd ≠ none) →
      exec (.endReport script track) s = .next s)

/-! ### Gallery link frames (chapter 11) -/

/-- R164. A frame made for a link is sent at once when the link is idle, waits behind the others in a queue of 64, and is dropped when
64 wait; when a frame is sent the next follows, in the order they were made. A frame is the lead byte, the type, the payload's
length, the payload of its type and a check that makes the sum of the bytes after the lead 0. Bytes of which no whole frame is valid
leave a link's receiver alone changed. That the frame being sent is not one of the 64 is the model's reading (notes/assumptions/9.md,
DEDUCED). -/
def Obligations.LinksCarryWholeFramesInOrder : Prop :=
  (∀ (s : State) (k : Link) (f : OutFrame), s.held = false →
    exec (.linkTransmitDone k) s = .next (s.setTx k ⟨(s.tx k).queue.head?, (s.tx k).queue.tail⟩) ∧
    (s.emit k f = s.setTx k ((s.tx k).push f)) ∧
    ((s.tx k).sending = none → (s.tx k).push f = ⟨some f, (s.tx k).queue⟩) ∧
    ((s.tx k).sending ≠ none → (s.tx k).queue.length < 64 →
      (s.tx k).push f = ⟨(s.tx k).sending, (s.tx k).queue ++ [f]⟩) ∧
    ((s.tx k).sending ≠ none → 64 ≤ (s.tx k).queue.length → (s.tx k).push f = s.tx k)) ∧
  (∀ f : OutFrame, ∃ type payload check,
    f.bytes = 0xC3#8 :: type :: BitVec.ofNat 8 payload.length :: payload ++ [check] ∧ payload.length < 256 ∧
    byteSum (type :: BitVec.ofNat 8 payload.length :: payload ++ [check]) = 0 ∧
    (∀ tag a param t, f = .command tag a param t →
      type = 0x01#8 ∧
      payload = [tag.setWidth 8, BitVec.ofNat 8 a.code, param.extractLsb' 8 8, param.setWidth 8, BitVec.ofNat 8 (trackCode t)]) ∧
    (f = .poll → type = 0x02#8 ∧ payload = []) ∧
    (∀ x t, f = .loadScript x t → type = 0x11#8 ∧
      payload = [x.extractLsb' 24 8, x.extractLsb' 16 8, x.extractLsb' 8 8, x.setWidth 8, BitVec.ofNat 8 (trackCode t)]) ∧
    (∀ x t, f = .go x t → type = 0x12#8 ∧
      payload = [x.extractLsb' 24 8, x.extractLsb' 16 8, x.extractLsb' 8 8, x.setWidth 8, BitVec.ofNat 8 (trackCode t)]) ∧
    (∀ p l n r, f = .display p l n r → type = 0x21#8 ∧
      payload = [BitVec.ofNat 8 p.val, (match l with | .off => 0#8 | .standby => 1#8 | .onAir => 2#8 | .wrap => 3#8),
        BitVec.ofNat 8 (n / 65536), BitVec.ofNat 8 (n / 256), BitVec.ofNat 8 n,
        (match r with | .r25 => 0#8 | .r2997 => 1#8 | .r30 => 2#8 | .r50 => 3#8 | .r5994 => 4#8 | .r60 => 5#8)])) ∧
  (∀ (s : State) (k : RxLink) (bytes : List Byte), s.held = false → s.rx k = .hunting →
    (Instr.discardedLinkFrame k bytes).wellFormed = true →
    ∃ u, exec (.discardedLinkFrame k bytes) s = .next u ∧ u = s.setRx k (u.rx k) ∧
      (0xC3#8 ∉ bytes → u = s))

/-! ### The part-wide configuration (chapter 10) -/

/-- R159, with R67 and R110. PART.CONFIG gives the fields it names, the debounce and the default route's numbers held to their ranges;
a new frame rate restarts the flywheel measure from the last frame event and, in FLYWHEEL, the qualifying count, and the rate
already set changes nothing. PART.CONFIG and PART.READ answer the configuration with the flags; PART.CONFIG refuses what its rule
says; nothing else changes. The model's own readings: that a code is looked at only where the field set names its field, and that an
undefined bit of the mask, and a code of the default route's enabled that is
neither yes nor no, refuse the request there (DEDUCED: notes/assumptions/8.md, from R163), and what a new rate does to
the flywheel timer's measure (DEDUCED: notes/assumptions/6.md). -/
def Obligations.PartConfigSetsTheNamedFields : Prop :=
  ∀ (s : State) (fields : Nat) (v : PartSettings), s.portFree →
    exec .partRead s = .next (s.answeredWith 1 .ok (.part ⟨s.mask, s.frameRate, s.debounce, s.defaultRoute, s.flags⟩)) ∧
    (fields = 0 ∨ 2048 ≤ fields ∨ deliveryBad v.delivery fields 4 ∨ (fields.testBit 0 = true ∧ 1024 ≤ v.mask) ∨
        (fields.testBit 1 = true ∧ 6 ≤ v.frameRate) ∨ (fields.testBit 3 = true ∧ 2 ≤ v.routeEnabled) →
      exec (.partConfig fields v) s = .next (s.answeredWith 18 .range .empty)) ∧
    (∀ rate x, 0 < fields → fields < 2048 → ¬deliveryBad v.delivery fields 4 → (fields.testBit 0 = true → v.mask < 1024) →
      (fields.testBit 3 = true → v.routeEnabled < 2) →
      (if fields.testBit 1 then frameRateOf v.frameRate = some rate else rate = s.frameRate) →
      x.GivenBy s.defaultRoute.delivery v.delivery fields 4 →
      ∃ u, exec (.partConfig fields v) s = .next u ∧
        u = { s.answeredWith 18
                (okOr (decide ((fields.testBit 2 = true ∧ (v.debounce = 0 ∨ 15 < v.debounce)) ∨ deliveryClamps v.delivery fields 4)))
                (.part ⟨u.mask, u.frameRate, u.debounce, u.defaultRoute, u.flags⟩) with
              mask := u.mask, frameRate := rate, debounce := u.debounce, defaultRoute := u.defaultRoute
              sinceTimer := u.sinceTimer, qualifying := u.qualifying } ∧
        (∀ e n, ([Event.takeA, .takeB, .timingA, .timingB, .cueFail, .channelFault, .groupDone, .rateReseed, .reference,
            .resetSeen])[n]? = some e → u.mask.get e = if fields.testBit 0 then v.mask.testBit n else s.mask.get e) ∧
        u.debounce = (if fields.testBit 2 then max 1 (min v.debounce 15) else s.debounce) ∧
        u.defaultRoute = ⟨if fields.testBit 3 then decide (v.routeEnabled = 1) else s.defaultRoute.enabled, x⟩ ∧
        (rate = s.frameRate ∨ s.reference = .locked → u.sinceTimer = s.sinceTimer ∧ u.qualifying = s.qualifying) ∧
        (rate ≠ s.frameRate → s.reference = .flywheel → u.sinceTimer = s.sinceFrame ∧ u.qualifying = 0))

/-! ### What every step keeps -/

/-- The ranges of the items' figures and lists, of the staged edits, and of the records, the counts, the queues and the links (R3, R40, R57,
R64, R79, R107, R110, R111, R117 to R121, R138, R164) are kept by every step, from any state that meets them, and a READY channel
has nothing queued. Left out are the offset of a cue, which a request carries in two bytes, the last samples, the completions handed
but not yet taken, and the figures no rule gives a range. -/
def Obligations.EveryStepKeepsTheRanges : Prop :=
  ∀ s t : State, s.InRange → step s = .next t → t.InRange

/-- R8. No step gives two live items one story key. -/
def Obligations.EveryStepKeepsTheStoryKeysDistinct : Prop :=
  ∀ s t : State, s.KeysDistinct → step s = .next t → t.KeysDistinct

/-- R1, R9, R11, R24, R25, R30, R34, R40, R44. Every step keeps each order the live items of its track without repetition; the staged slots
those the groups have reserved, one for each CREATE they have staged for their track; the pools not overdrawn; each armed queue the
ARMED groups of its track; and each track's pointers its one ON_AIR item and its one READY item, which is the first candidate. -/
def Obligations.EveryStepKeepsTheItemTableSound : Prop :=
  ∀ s t : State, s.Sound → step s = .next t → t.Sound

/-- R2, R24, R40, R79, R117, R160. The state after part reset meets what every step keeps. -/
def Obligations.ResetMeetsWhatEveryStepKeeps : Prop :=
  State.reset.InRange ∧ State.reset.KeysDistinct ∧ State.reset.Sound
end

