-- ==== Sys2Proof/Laws/Bank.lean ====
section
/-! SUPPORT. Reading a bank or a pair after writing it. -/

namespace Sys2Proof.Machine

variable {n : Nat} {α β : Type}

theorem Bank.ext {b c : Bank n α} (h : b.cells = c.cells) : b = c := by
  cases b; cases c; simp_all

@[simp] theorem Bank.get_set_self (b : Bank n α) (i : Fin n) (a : α) : (b.set i a).get i = a := by
  simp [Bank.get, Bank.set]

theorem Bank.get_set_ne (b : Bank n α) {i j : Fin n} (a : α) (h : j ≠ i) : (b.set i a).get j = b.get j := by
  have : (i : Nat) ≠ j := fun e => h (Fin.ext e.symm)
  simp [Bank.get, Bank.set, this]

theorem Bank.get_set (b : Bank n α) (i j : Fin n) (a : α) : (b.set i a).get j = if j = i then a else b.get j := by
  split
  · next h => subst h; simp
  · next h => exact b.get_set_ne a h

@[simp] theorem Bank.get_replicate (i : Fin n) (a : α) : (Bank.replicate n a).get i = a := by
  simp [Bank.get, Bank.replicate]

/-- Writing back what is read changes nothing. -/
@[simp] theorem Bank.set_get (b : Bank n α) (i : Fin n) : b.set i (b.get i) = b := by
  apply Bank.ext; simp [Bank.get, Bank.set]

/-- The second of two writes to one place stands. -/
@[simp] theorem Bank.set_set (b : Bank n α) (i : Fin n) (a c : α) : (b.set i a).set i c = b.set i c := by
  apply Bank.ext; simp [Bank.set]

/-- Two banks that read alike everywhere are equal. -/
theorem Bank.ext_get {b c : Bank n α} (h : ∀ i, b.get i = c.get i) : b = c := by
  apply Bank.ext
  apply List.ext_getElem
  · rw [b.size, c.size]
  · intro k h1 h2
    exact h ⟨k, by rw [← b.size]; exact h1⟩

@[simp] theorem Bank.length_entries (b : Bank n α) : b.entries.length = n := by
  simp [Bank.entries, b.size]

/-- The entries of a bank are its records with their numbers. -/
theorem Bank.mem_entries {b : Bank n α} {e : Fin n × α} : e ∈ b.entries ↔ e.2 = b.get e.1 := by
  constructor
  · intro h
    obtain ⟨k, hk, rfl⟩ := List.mem_iff_getElem.mp h
    simp [Bank.entries, Bank.get]
  · intro h
    refine List.mem_iff_getElem.mpr ⟨e.1.val, by simp, ?_⟩
    ext1 <;> simp [Bank.entries, h, Bank.get]

/-- A record is among a bank's cells when it is read somewhere. -/
theorem Bank.mem_cells {b : Bank n α} {a : α} : a ∈ b.cells ↔ ∃ i, b.get i = a := by
  constructor
  · intro h
    obtain ⟨k, hk, rfl⟩ := List.mem_iff_getElem.mp h
    exact ⟨⟨k, by rw [← b.size]; exact hk⟩, rfl⟩
  · rintro ⟨i, rfl⟩
    exact List.getElem_mem _

@[simp] theorem PerTrack.get_set_self (p : PerTrack α) (t : Track) (x : α) : (p.set t x).get t = x := by cases t <;> rfl

theorem PerTrack.get_set_ne (p : PerTrack α) {t u : Track} (x : α) (h : u ≠ t) : (p.set t x).get u = p.get u := by
  cases t <;> cases u <;> first | rfl | exact absurd rfl h

theorem PerTrack.get_set (p : PerTrack α) (t u : Track) (x : α) : (p.set t x).get u = if u = t then x else p.get u := by
  cases t <;> cases u <;> rfl

@[simp] theorem PerTrack.set_get (p : PerTrack α) (t : Track) : p.set t (p.get t) = p := by cases t <;> rfl

@[simp] theorem PerTrack.set_set (p : PerTrack α) (t : Track) (x y : α) : (p.set t x).set t y = p.set t y := by cases t <;> rfl

end Sys2Proof.Machine
end

