-- ==== Sys2Proof/Laws/State.lean ====
section
/-! SUPPORT. One lemma for each field and each update of the state, and for each record read after each update. -/

namespace Sys2Proof.Machine

variable (s : State)

/-! ### setSlot -/

@[simp] theorem State.setSlot_slots (i : Slot) (x : Item) : (s.setSlot i x).slots = s.slots.set i x := rfl
@[simp] theorem State.setSlot_orders (i : Slot) (x : Item) : (s.setSlot i x).orders = s.orders := rfl
@[simp] theorem State.setSlot_groups (i : Slot) (x : Item) : (s.setSlot i x).groups = s.groups := rfl
@[simp] theorem State.setSlot_armed (i : Slot) (x : Item) : (s.setSlot i x).armed = s.armed := rfl
@[simp] theorem State.setSlot_tracks (i : Slot) (x : Item) : (s.setSlot i x).tracks = s.tracks := rfl
@[simp] theorem State.setSlot_panel (i : Slot) (x : Item) : (s.setSlot i x).panel = s.panel := rfl
@[simp] theorem State.setSlot_sfc (i : Slot) (x : Item) : (s.setSlot i x).sfc = s.sfc := rfl
@[simp] theorem State.setSlot_reference (i : Slot) (x : Item) : (s.setSlot i x).reference = s.reference := rfl
@[simp] theorem State.setSlot_qualifying (i : Slot) (x : Item) : (s.setSlot i x).qualifying = s.qualifying := rfl
@[simp] theorem State.setSlot_sinceFrame (i : Slot) (x : Item) : (s.setSlot i x).sinceFrame = s.sinceFrame := rfl
@[simp] theorem State.setSlot_sinceTimer (i : Slot) (x : Item) : (s.setSlot i x).sinceTimer = s.sinceTimer := rfl
@[simp] theorem State.setSlot_sincePulse (i : Slot) (x : Item) : (s.setSlot i x).sincePulse = s.sincePulse := rfl
@[simp] theorem State.setSlot_lastTick (i : Slot) (x : Item) : (s.setSlot i x).lastTick = s.lastTick := rfl
@[simp] theorem State.setSlot_status (i : Slot) (x : Item) : (s.setSlot i x).status = s.status := rfl
@[simp] theorem State.setSlot_presenters (i : Slot) (x : Item) : (s.setSlot i x).presenters = s.presenters := rfl
@[simp] theorem State.setSlot_readsDone (i : Slot) (x : Item) : (s.setSlot i x).readsDone = s.readsDone := rfl
@[simp] theorem State.setSlot_firing (i : Slot) (x : Item) : (s.setSlot i x).firing = s.firing := rfl
@[simp] theorem State.setSlot_cuesDone (i : Slot) (x : Item) : (s.setSlot i x).cuesDone = s.cuesDone := rfl
@[simp] theorem State.setSlot_routes (i : Slot) (x : Item) : (s.setSlot i x).routes = s.routes := rfl
@[simp] theorem State.setSlot_isGlobal (i : Slot) (x : Item) : (s.setSlot i x).isGlobal = s.isGlobal := rfl
@[simp] theorem State.setSlot_defaultRoute (i : Slot) (x : Item) : (s.setSlot i x).defaultRoute = s.defaultRoute := rfl
@[simp] theorem State.setSlot_channels (i : Slot) (x : Item) : (s.setSlot i x).channels = s.channels := rfl
@[simp] theorem State.setSlot_lights (i : Slot) (x : Item) : (s.setSlot i x).lights = s.lights := rfl
@[simp] theorem State.setSlot_rotation (i : Slot) (x : Item) : (s.setSlot i x).rotation = s.rotation := rfl
@[simp] theorem State.setSlot_buffer (i : Slot) (x : Item) : (s.setSlot i x).buffer = s.buffer := rfl
@[simp] theorem State.setSlot_flags (i : Slot) (x : Item) : (s.setSlot i x).flags = s.flags := rfl
@[simp] theorem State.setSlot_mask (i : Slot) (x : Item) : (s.setSlot i x).mask = s.mask := rfl
@[simp] theorem State.setSlot_debounce (i : Slot) (x : Item) : (s.setSlot i x).debounce = s.debounce := rfl
@[simp] theorem State.setSlot_frameRate (i : Slot) (x : Item) : (s.setSlot i x).frameRate = s.frameRate := rfl
@[simp] theorem State.setSlot_deviceTx (i : Slot) (x : Item) : (s.setSlot i x).deviceTx = s.deviceTx := rfl
@[simp] theorem State.setSlot_prompterTx (i : Slot) (x : Item) : (s.setSlot i x).prompterTx = s.prompterTx := rfl
@[simp] theorem State.setSlot_displayTx (i : Slot) (x : Item) : (s.setSlot i x).displayTx = s.displayTx := rfl
@[simp] theorem State.setSlot_deviceRx (i : Slot) (x : Item) : (s.setSlot i x).deviceRx = s.deviceRx := rfl
@[simp] theorem State.setSlot_prompterRx (i : Slot) (x : Item) : (s.setSlot i x).prompterRx = s.prompterRx := rfl
@[simp] theorem State.setSlot_held (i : Slot) (x : Item) : (s.setSlot i x).held = s.held := rfl
@[simp] theorem State.setSlot_due (i : Slot) (x : Item) : (s.setSlot i x).due = s.due := rfl
@[simp] theorem State.setSlot_cut (i : Slot) (x : Item) : (s.setSlot i x).cut = s.cut := rfl
@[simp] theorem State.setSlot_counted (i : Slot) (x : Item) : (s.setSlot i x).counted = s.counted := rfl
@[simp] theorem State.setSlot_looks (i : Slot) (x : Item) : (s.setSlot i x).looks = s.looks := rfl
@[simp] theorem State.setSlot_sdoStatus (i : Slot) (x : Item) : (s.setSlot i x).sdoStatus = s.sdoStatus := rfl
@[simp] theorem State.setSlot_sdo (i : Slot) (x : Item) : (s.setSlot i x).sdo = s.sdo := rfl
@[simp] theorem State.setSlot_pending (i : Slot) (x : Item) : (s.setSlot i x).pending = s.pending := rfl
@[simp] theorem State.setSlot_slot_self (i : Slot) (x : Item) : (s.setSlot i x).slot i = x := by simp [State.slot]
theorem State.setSlot_slot_ne (i : Slot) (x : Item) {j : Slot} (hne : j ≠ i) : (s.setSlot i x).slot j = s.slot j :=
  Bank.get_set_ne _ _ hne
theorem State.setSlot_slot (i : Slot) (x : Item) (j : Slot) : (s.setSlot i x).slot j = if j = i then x else s.slot j :=
  Bank.get_set _ _ _ _
@[simp] theorem State.setSlot_order (i : Slot) (x : Item) (u : Track) : (s.setSlot i x).order u = s.order u := rfl
@[simp] theorem State.setSlot_group (i : Slot) (x : Item) (h : GroupNo) : (s.setSlot i x).group h = s.group h := rfl
@[simp] theorem State.setSlot_armedQueue (i : Slot) (x : Item) (u : Track) : (s.setSlot i x).armedQueue u = s.armedQueue u := rfl
@[simp] theorem State.setSlot_track (i : Slot) (x : Item) (u : Track) : (s.setSlot i x).track u = s.track u := rfl
@[simp] theorem State.setSlot_input (i : Slot) (x : Item) (j : PanelInput) : (s.setSlot i x).input j = s.input j := rfl
@[simp] theorem State.setSlot_statusOf (i : Slot) (x : Item) (u : Track) : (s.setSlot i x).statusOf u = s.statusOf u := rfl
@[simp] theorem State.setSlot_presenter (i : Slot) (x : Item) (q : Pos) : (s.setSlot i x).presenter q = s.presenter q := rfl
@[simp] theorem State.setSlot_look (i : Slot) (x : Item) (u : Track) : (s.setSlot i x).look u = s.look u := rfl
@[simp] theorem State.setSlot_route (i : Slot) (x : Item) (m : RouteNo) : (s.setSlot i x).route m = s.route m := rfl
@[simp] theorem State.setSlot_channel (i : Slot) (x : Item) (d : Chan) : (s.setSlot i x).channel d = s.channel d := rfl
@[simp] theorem State.setSlot_light (i : Slot) (x : Item) (q : Pos) : (s.setSlot i x).light q = s.light q := rfl
@[simp] theorem State.setSlot_tx (i : Slot) (x : Item) (k : Link) : (s.setSlot i x).tx k = s.tx k := by cases k <;> rfl
@[simp] theorem State.setSlot_rx (i : Slot) (x : Item) (k : RxLink) : (s.setSlot i x).rx k = s.rx k := by cases k <;> rfl

/-! ### setOrder -/

@[simp] theorem State.setOrder_slots (t : Track) (l : List Slot) : (s.setOrder t l).slots = s.slots := rfl
@[simp] theorem State.setOrder_orders (t : Track) (l : List Slot) : (s.setOrder t l).orders = s.orders.set t l := rfl
@[simp] theorem State.setOrder_groups (t : Track) (l : List Slot) : (s.setOrder t l).groups = s.groups := rfl
@[simp] theorem State.setOrder_armed (t : Track) (l : List Slot) : (s.setOrder t l).armed = s.armed := rfl
@[simp] theorem State.setOrder_tracks (t : Track) (l : List Slot) : (s.setOrder t l).tracks = s.tracks := rfl
@[simp] theorem State.setOrder_panel (t : Track) (l : List Slot) : (s.setOrder t l).panel = s.panel := rfl
@[simp] theorem State.setOrder_sfc (t : Track) (l : List Slot) : (s.setOrder t l).sfc = s.sfc := rfl
@[simp] theorem State.setOrder_reference (t : Track) (l : List Slot) : (s.setOrder t l).reference = s.reference := rfl
@[simp] theorem State.setOrder_qualifying (t : Track) (l : List Slot) : (s.setOrder t l).qualifying = s.qualifying := rfl
@[simp] theorem State.setOrder_sinceFrame (t : Track) (l : List Slot) : (s.setOrder t l).sinceFrame = s.sinceFrame := rfl
@[simp] theorem State.setOrder_sinceTimer (t : Track) (l : List Slot) : (s.setOrder t l).sinceTimer = s.sinceTimer := rfl
@[simp] theorem State.setOrder_sincePulse (t : Track) (l : List Slot) : (s.setOrder t l).sincePulse = s.sincePulse := rfl
@[simp] theorem State.setOrder_lastTick (t : Track) (l : List Slot) : (s.setOrder t l).lastTick = s.lastTick := rfl
@[simp] theorem State.setOrder_status (t : Track) (l : List Slot) : (s.setOrder t l).status = s.status := rfl
@[simp] theorem State.setOrder_presenters (t : Track) (l : List Slot) : (s.setOrder t l).presenters = s.presenters := rfl
@[simp] theorem State.setOrder_readsDone (t : Track) (l : List Slot) : (s.setOrder t l).readsDone = s.readsDone := rfl
@[simp] theorem State.setOrder_firing (t : Track) (l : List Slot) : (s.setOrder t l).firing = s.firing := rfl
@[simp] theorem State.setOrder_cuesDone (t : Track) (l : List Slot) : (s.setOrder t l).cuesDone = s.cuesDone := rfl
@[simp] theorem State.setOrder_routes (t : Track) (l : List Slot) : (s.setOrder t l).routes = s.routes := rfl
@[simp] theorem State.setOrder_isGlobal (t : Track) (l : List Slot) : (s.setOrder t l).isGlobal = s.isGlobal := rfl
@[simp] theorem State.setOrder_defaultRoute (t : Track) (l : List Slot) : (s.setOrder t l).defaultRoute = s.defaultRoute := rfl
@[simp] theorem State.setOrder_channels (t : Track) (l : List Slot) : (s.setOrder t l).channels = s.channels := rfl
@[simp] theorem State.setOrder_lights (t : Track) (l : List Slot) : (s.setOrder t l).lights = s.lights := rfl
@[simp] theorem State.setOrder_rotation (t : Track) (l : List Slot) : (s.setOrder t l).rotation = s.rotation := rfl
@[simp] theorem State.setOrder_buffer (t : Track) (l : List Slot) : (s.setOrder t l).buffer = s.buffer := rfl
@[simp] theorem State.setOrder_flags (t : Track) (l : List Slot) : (s.setOrder t l).flags = s.flags := rfl
@[simp] theorem State.setOrder_mask (t : Track) (l : List Slot) : (s.setOrder t l).mask = s.mask := rfl
@[simp] theorem State.setOrder_debounce (t : Track) (l : List Slot) : (s.setOrder t l).debounce = s.debounce := rfl
@[simp] theorem State.setOrder_frameRate (t : Track) (l : List Slot) : (s.setOrder t l).frameRate = s.frameRate := rfl
@[simp] theorem State.setOrder_deviceTx (t : Track) (l : List Slot) : (s.setOrder t l).deviceTx = s.deviceTx := rfl
@[simp] theorem State.setOrder_prompterTx (t : Track) (l : List Slot) : (s.setOrder t l).prompterTx = s.prompterTx := rfl
@[simp] theorem State.setOrder_displayTx (t : Track) (l : List Slot) : (s.setOrder t l).displayTx = s.displayTx := rfl
@[simp] theorem State.setOrder_deviceRx (t : Track) (l : List Slot) : (s.setOrder t l).deviceRx = s.deviceRx := rfl
@[simp] theorem State.setOrder_prompterRx (t : Track) (l : List Slot) : (s.setOrder t l).prompterRx = s.prompterRx := rfl
@[simp] theorem State.setOrder_held (t : Track) (l : List Slot) : (s.setOrder t l).held = s.held := rfl
@[simp] theorem State.setOrder_due (t : Track) (l : List Slot) : (s.setOrder t l).due = s.due := rfl
@[simp] theorem State.setOrder_cut (t : Track) (l : List Slot) : (s.setOrder t l).cut = s.cut := rfl
@[simp] theorem State.setOrder_counted (t : Track) (l : List Slot) : (s.setOrder t l).counted = s.counted := rfl
@[simp] theorem State.setOrder_looks (t : Track) (l : List Slot) : (s.setOrder t l).looks = s.looks := rfl
@[simp] theorem State.setOrder_sdoStatus (t : Track) (l : List Slot) : (s.setOrder t l).sdoStatus = s.sdoStatus := rfl
@[simp] theorem State.setOrder_sdo (t : Track) (l : List Slot) : (s.setOrder t l).sdo = s.sdo := rfl
@[simp] theorem State.setOrder_pending (t : Track) (l : List Slot) : (s.setOrder t l).pending = s.pending := rfl
@[simp] theorem State.setOrder_slot (t : Track) (l : List Slot) (j : Slot) : (s.setOrder t l).slot j = s.slot j := rfl
@[simp] theorem State.setOrder_order_self (t : Track) (l : List Slot) : (s.setOrder t l).order t = l := by simp [State.order]
theorem State.setOrder_order_ne (t : Track) (l : List Slot) {u : Track} (hne : u ≠ t) : (s.setOrder t l).order u = s.order u :=
  PerTrack.get_set_ne _ _ hne
theorem State.setOrder_order (t : Track) (l : List Slot) (u : Track) : (s.setOrder t l).order u = if u = t then l else s.order u :=
  PerTrack.get_set _ _ _ _
@[simp] theorem State.setOrder_group (t : Track) (l : List Slot) (h : GroupNo) : (s.setOrder t l).group h = s.group h := rfl
@[simp] theorem State.setOrder_armedQueue (t : Track) (l : List Slot) (u : Track) : (s.setOrder t l).armedQueue u = s.armedQueue u := rfl
@[simp] theorem State.setOrder_track (t : Track) (l : List Slot) (u : Track) : (s.setOrder t l).track u = s.track u := rfl
@[simp] theorem State.setOrder_input (t : Track) (l : List Slot) (j : PanelInput) : (s.setOrder t l).input j = s.input j := rfl
@[simp] theorem State.setOrder_statusOf (t : Track) (l : List Slot) (u : Track) : (s.setOrder t l).statusOf u = s.statusOf u := rfl
@[simp] theorem State.setOrder_presenter (t : Track) (l : List Slot) (q : Pos) : (s.setOrder t l).presenter q = s.presenter q := rfl
@[simp] theorem State.setOrder_look (t : Track) (l : List Slot) (u : Track) : (s.setOrder t l).look u = s.look u := rfl
@[simp] theorem State.setOrder_route (t : Track) (l : List Slot) (m : RouteNo) : (s.setOrder t l).route m = s.route m := rfl
@[simp] theorem State.setOrder_channel (t : Track) (l : List Slot) (d : Chan) : (s.setOrder t l).channel d = s.channel d := rfl
@[simp] theorem State.setOrder_light (t : Track) (l : List Slot) (q : Pos) : (s.setOrder t l).light q = s.light q := rfl
@[simp] theorem State.setOrder_tx (t : Track) (l : List Slot) (k : Link) : (s.setOrder t l).tx k = s.tx k := by cases k <;> rfl
@[simp] theorem State.setOrder_rx (t : Track) (l : List Slot) (k : RxLink) : (s.setOrder t l).rx k = s.rx k := by cases k <;> rfl

/-! ### setGroup -/

@[simp] theorem State.setGroup_slots (g : GroupNo) (x : Group) : (s.setGroup g x).slots = s.slots := rfl
@[simp] theorem State.setGroup_orders (g : GroupNo) (x : Group) : (s.setGroup g x).orders = s.orders := rfl
@[simp] theorem State.setGroup_groups (g : GroupNo) (x : Group) : (s.setGroup g x).groups = s.groups.set g x := rfl
@[simp] theorem State.setGroup_armed (g : GroupNo) (x : Group) : (s.setGroup g x).armed = s.armed := rfl
@[simp] theorem State.setGroup_tracks (g : GroupNo) (x : Group) : (s.setGroup g x).tracks = s.tracks := rfl
@[simp] theorem State.setGroup_panel (g : GroupNo) (x : Group) : (s.setGroup g x).panel = s.panel := rfl
@[simp] theorem State.setGroup_sfc (g : GroupNo) (x : Group) : (s.setGroup g x).sfc = s.sfc := rfl
@[simp] theorem State.setGroup_reference (g : GroupNo) (x : Group) : (s.setGroup g x).reference = s.reference := rfl
@[simp] theorem State.setGroup_qualifying (g : GroupNo) (x : Group) : (s.setGroup g x).qualifying = s.qualifying := rfl
@[simp] theorem State.setGroup_sinceFrame (g : GroupNo) (x : Group) : (s.setGroup g x).sinceFrame = s.sinceFrame := rfl
@[simp] theorem State.setGroup_sinceTimer (g : GroupNo) (x : Group) : (s.setGroup g x).sinceTimer = s.sinceTimer := rfl
@[simp] theorem State.setGroup_sincePulse (g : GroupNo) (x : Group) : (s.setGroup g x).sincePulse = s.sincePulse := rfl
@[simp] theorem State.setGroup_lastTick (g : GroupNo) (x : Group) : (s.setGroup g x).lastTick = s.lastTick := rfl
@[simp] theorem State.setGroup_status (g : GroupNo) (x : Group) : (s.setGroup g x).status = s.status := rfl
@[simp] theorem State.setGroup_presenters (g : GroupNo) (x : Group) : (s.setGroup g x).presenters = s.presenters := rfl
@[simp] theorem State.setGroup_readsDone (g : GroupNo) (x : Group) : (s.setGroup g x).readsDone = s.readsDone := rfl
@[simp] theorem State.setGroup_firing (g : GroupNo) (x : Group) : (s.setGroup g x).firing = s.firing := rfl
@[simp] theorem State.setGroup_cuesDone (g : GroupNo) (x : Group) : (s.setGroup g x).cuesDone = s.cuesDone := rfl
@[simp] theorem State.setGroup_routes (g : GroupNo) (x : Group) : (s.setGroup g x).routes = s.routes := rfl
@[simp] theorem State.setGroup_isGlobal (g : GroupNo) (x : Group) : (s.setGroup g x).isGlobal = s.isGlobal := rfl
@[simp] theorem State.setGroup_defaultRoute (g : GroupNo) (x : Group) : (s.setGroup g x).defaultRoute = s.defaultRoute := rfl
@[simp] theorem State.setGroup_channels (g : GroupNo) (x : Group) : (s.setGroup g x).channels = s.channels := rfl
@[simp] theorem State.setGroup_lights (g : GroupNo) (x : Group) : (s.setGroup g x).lights = s.lights := rfl
@[simp] theorem State.setGroup_rotation (g : GroupNo) (x : Group) : (s.setGroup g x).rotation = s.rotation := rfl
@[simp] theorem State.setGroup_buffer (g : GroupNo) (x : Group) : (s.setGroup g x).buffer = s.buffer := rfl
@[simp] theorem State.setGroup_flags (g : GroupNo) (x : Group) : (s.setGroup g x).flags = s.flags := rfl
@[simp] theorem State.setGroup_mask (g : GroupNo) (x : Group) : (s.setGroup g x).mask = s.mask := rfl
@[simp] theorem State.setGroup_debounce (g : GroupNo) (x : Group) : (s.setGroup g x).debounce = s.debounce := rfl
@[simp] theorem State.setGroup_frameRate (g : GroupNo) (x : Group) : (s.setGroup g x).frameRate = s.frameRate := rfl
@[simp] theorem State.setGroup_deviceTx (g : GroupNo) (x : Group) : (s.setGroup g x).deviceTx = s.deviceTx := rfl
@[simp] theorem State.setGroup_prompterTx (g : GroupNo) (x : Group) : (s.setGroup g x).prompterTx = s.prompterTx := rfl
@[simp] theorem State.setGroup_displayTx (g : GroupNo) (x : Group) : (s.setGroup g x).displayTx = s.displayTx := rfl
@[simp] theorem State.setGroup_deviceRx (g : GroupNo) (x : Group) : (s.setGroup g x).deviceRx = s.deviceRx := rfl
@[simp] theorem State.setGroup_prompterRx (g : GroupNo) (x : Group) : (s.setGroup g x).prompterRx = s.prompterRx := rfl
@[simp] theorem State.setGroup_held (g : GroupNo) (x : Group) : (s.setGroup g x).held = s.held := rfl
@[simp] theorem State.setGroup_due (g : GroupNo) (x : Group) : (s.setGroup g x).due = s.due := rfl
@[simp] theorem State.setGroup_cut (g : GroupNo) (x : Group) : (s.setGroup g x).cut = s.cut := rfl
@[simp] theorem State.setGroup_counted (g : GroupNo) (x : Group) : (s.setGroup g x).counted = s.counted := rfl
@[simp] theorem State.setGroup_looks (g : GroupNo) (x : Group) : (s.setGroup g x).looks = s.looks := rfl
@[simp] theorem State.setGroup_sdoStatus (g : GroupNo) (x : Group) : (s.setGroup g x).sdoStatus = s.sdoStatus := rfl
@[simp] theorem State.setGroup_sdo (g : GroupNo) (x : Group) : (s.setGroup g x).sdo = s.sdo := rfl
@[simp] theorem State.setGroup_pending (g : GroupNo) (x : Group) : (s.setGroup g x).pending = s.pending := rfl
@[simp] theorem State.setGroup_slot (g : GroupNo) (x : Group) (j : Slot) : (s.setGroup g x).slot j = s.slot j := rfl
@[simp] theorem State.setGroup_order (g : GroupNo) (x : Group) (u : Track) : (s.setGroup g x).order u = s.order u := rfl
@[simp] theorem State.setGroup_group_self (g : GroupNo) (x : Group) : (s.setGroup g x).group g = x := by simp [State.group]
theorem State.setGroup_group_ne (g : GroupNo) (x : Group) {h : GroupNo} (hne : h ≠ g) : (s.setGroup g x).group h = s.group h :=
  Bank.get_set_ne _ _ hne
theorem State.setGroup_group (g : GroupNo) (x : Group) (h : GroupNo) : (s.setGroup g x).group h = if h = g then x else s.group h :=
  Bank.get_set _ _ _ _
@[simp] theorem State.setGroup_armedQueue (g : GroupNo) (x : Group) (u : Track) : (s.setGroup g x).armedQueue u = s.armedQueue u := rfl
@[simp] theorem State.setGroup_track (g : GroupNo) (x : Group) (u : Track) : (s.setGroup g x).track u = s.track u := rfl
@[simp] theorem State.setGroup_input (g : GroupNo) (x : Group) (j : PanelInput) : (s.setGroup g x).input j = s.input j := rfl
@[simp] theorem State.setGroup_statusOf (g : GroupNo) (x : Group) (u : Track) : (s.setGroup g x).statusOf u = s.statusOf u := rfl
@[simp] theorem State.setGroup_presenter (g : GroupNo) (x : Group) (q : Pos) : (s.setGroup g x).presenter q = s.presenter q := rfl
@[simp] theorem State.setGroup_look (g : GroupNo) (x : Group) (u : Track) : (s.setGroup g x).look u = s.look u := rfl
@[simp] theorem State.setGroup_route (g : GroupNo) (x : Group) (m : RouteNo) : (s.setGroup g x).route m = s.route m := rfl
@[simp] theorem State.setGroup_channel (g : GroupNo) (x : Group) (d : Chan) : (s.setGroup g x).channel d = s.channel d := rfl
@[simp] theorem State.setGroup_light (g : GroupNo) (x : Group) (q : Pos) : (s.setGroup g x).light q = s.light q := rfl
@[simp] theorem State.setGroup_tx (g : GroupNo) (x : Group) (k : Link) : (s.setGroup g x).tx k = s.tx k := by cases k <;> rfl
@[simp] theorem State.setGroup_rx (g : GroupNo) (x : Group) (k : RxLink) : (s.setGroup g x).rx k = s.rx k := by cases k <;> rfl

/-! ### setArmed -/

@[simp] theorem State.setArmed_slots (t : Track) (l : List GroupNo) : (s.setArmed t l).slots = s.slots := rfl
@[simp] theorem State.setArmed_orders (t : Track) (l : List GroupNo) : (s.setArmed t l).orders = s.orders := rfl
@[simp] theorem State.setArmed_groups (t : Track) (l : List GroupNo) : (s.setArmed t l).groups = s.groups := rfl
@[simp] theorem State.setArmed_armed (t : Track) (l : List GroupNo) : (s.setArmed t l).armed = s.armed.set t l := rfl
@[simp] theorem State.setArmed_tracks (t : Track) (l : List GroupNo) : (s.setArmed t l).tracks = s.tracks := rfl
@[simp] theorem State.setArmed_panel (t : Track) (l : List GroupNo) : (s.setArmed t l).panel = s.panel := rfl
@[simp] theorem State.setArmed_sfc (t : Track) (l : List GroupNo) : (s.setArmed t l).sfc = s.sfc := rfl
@[simp] theorem State.setArmed_reference (t : Track) (l : List GroupNo) : (s.setArmed t l).reference = s.reference := rfl
@[simp] theorem State.setArmed_qualifying (t : Track) (l : List GroupNo) : (s.setArmed t l).qualifying = s.qualifying := rfl
@[simp] theorem State.setArmed_sinceFrame (t : Track) (l : List GroupNo) : (s.setArmed t l).sinceFrame = s.sinceFrame := rfl
@[simp] theorem State.setArmed_sinceTimer (t : Track) (l : List GroupNo) : (s.setArmed t l).sinceTimer = s.sinceTimer := rfl
@[simp] theorem State.setArmed_sincePulse (t : Track) (l : List GroupNo) : (s.setArmed t l).sincePulse = s.sincePulse := rfl
@[simp] theorem State.setArmed_lastTick (t : Track) (l : List GroupNo) : (s.setArmed t l).lastTick = s.lastTick := rfl
@[simp] theorem State.setArmed_status (t : Track) (l : List GroupNo) : (s.setArmed t l).status = s.status := rfl
@[simp] theorem State.setArmed_presenters (t : Track) (l : List GroupNo) : (s.setArmed t l).presenters = s.presenters := rfl
@[simp] theorem State.setArmed_readsDone (t : Track) (l : List GroupNo) : (s.setArmed t l).readsDone = s.readsDone := rfl
@[simp] theorem State.setArmed_firing (t : Track) (l : List GroupNo) : (s.setArmed t l).firing = s.firing := rfl
@[simp] theorem State.setArmed_cuesDone (t : Track) (l : List GroupNo) : (s.setArmed t l).cuesDone = s.cuesDone := rfl
@[simp] theorem State.setArmed_routes (t : Track) (l : List GroupNo) : (s.setArmed t l).routes = s.routes := rfl
@[simp] theorem State.setArmed_isGlobal (t : Track) (l : List GroupNo) : (s.setArmed t l).isGlobal = s.isGlobal := rfl
@[simp] theorem State.setArmed_defaultRoute (t : Track) (l : List GroupNo) : (s.setArmed t l).defaultRoute = s.defaultRoute := rfl
@[simp] theorem State.setArmed_channels (t : Track) (l : List GroupNo) : (s.setArmed t l).channels = s.channels := rfl
@[simp] theorem State.setArmed_lights (t : Track) (l : List GroupNo) : (s.setArmed t l).lights = s.lights := rfl
@[simp] theorem State.setArmed_rotation (t : Track) (l : List GroupNo) : (s.setArmed t l).rotation = s.rotation := rfl
@[simp] theorem State.setArmed_buffer (t : Track) (l : List GroupNo) : (s.setArmed t l).buffer = s.buffer := rfl
@[simp] theorem State.setArmed_flags (t : Track) (l : List GroupNo) : (s.setArmed t l).flags = s.flags := rfl
@[simp] theorem State.setArmed_mask (t : Track) (l : List GroupNo) : (s.setArmed t l).mask = s.mask := rfl
@[simp] theorem State.setArmed_debounce (t : Track) (l : List GroupNo) : (s.setArmed t l).debounce = s.debounce := rfl
@[simp] theorem State.setArmed_frameRate (t : Track) (l : List GroupNo) : (s.setArmed t l).frameRate = s.frameRate := rfl
@[simp] theorem State.setArmed_deviceTx (t : Track) (l : List GroupNo) : (s.setArmed t l).deviceTx = s.deviceTx := rfl
@[simp] theorem State.setArmed_prompterTx (t : Track) (l : List GroupNo) : (s.setArmed t l).prompterTx = s.prompterTx := rfl
@[simp] theorem State.setArmed_displayTx (t : Track) (l : List GroupNo) : (s.setArmed t l).displayTx = s.displayTx := rfl
@[simp] theorem State.setArmed_deviceRx (t : Track) (l : List GroupNo) : (s.setArmed t l).deviceRx = s.deviceRx := rfl
@[simp] theorem State.setArmed_prompterRx (t : Track) (l : List GroupNo) : (s.setArmed t l).prompterRx = s.prompterRx := rfl
@[simp] theorem State.setArmed_held (t : Track) (l : List GroupNo) : (s.setArmed t l).held = s.held := rfl
@[simp] theorem State.setArmed_due (t : Track) (l : List GroupNo) : (s.setArmed t l).due = s.due := rfl
@[simp] theorem State.setArmed_cut (t : Track) (l : List GroupNo) : (s.setArmed t l).cut = s.cut := rfl
@[simp] theorem State.setArmed_counted (t : Track) (l : List GroupNo) : (s.setArmed t l).counted = s.counted := rfl
@[simp] theorem State.setArmed_looks (t : Track) (l : List GroupNo) : (s.setArmed t l).looks = s.looks := rfl
@[simp] theorem State.setArmed_sdoStatus (t : Track) (l : List GroupNo) : (s.setArmed t l).sdoStatus = s.sdoStatus := rfl
@[simp] theorem State.setArmed_sdo (t : Track) (l : List GroupNo) : (s.setArmed t l).sdo = s.sdo := rfl
@[simp] theorem State.setArmed_pending (t : Track) (l : List GroupNo) : (s.setArmed t l).pending = s.pending := rfl
@[simp] theorem State.setArmed_slot (t : Track) (l : List GroupNo) (j : Slot) : (s.setArmed t l).slot j = s.slot j := rfl
@[simp] theorem State.setArmed_order (t : Track) (l : List GroupNo) (u : Track) : (s.setArmed t l).order u = s.order u := rfl
@[simp] theorem State.setArmed_group (t : Track) (l : List GroupNo) (h : GroupNo) : (s.setArmed t l).group h = s.group h := rfl
@[simp] theorem State.setArmed_armedQueue_self (t : Track) (l : List GroupNo) : (s.setArmed t l).armedQueue t = l := by simp [State.armedQueue]
theorem State.setArmed_armedQueue_ne (t : Track) (l : List GroupNo) {u : Track} (hne : u ≠ t) : (s.setArmed t l).armedQueue u = s.armedQueue u :=
  PerTrack.get_set_ne _ _ hne
theorem State.setArmed_armedQueue (t : Track) (l : List GroupNo) (u : Track) : (s.setArmed t l).armedQueue u = if u = t then l else s.armedQueue u :=
  PerTrack.get_set _ _ _ _
@[simp] theorem State.setArmed_track (t : Track) (l : List GroupNo) (u : Track) : (s.setArmed t l).track u = s.track u := rfl
@[simp] theorem State.setArmed_input (t : Track) (l : List GroupNo) (j : PanelInput) : (s.setArmed t l).input j = s.input j := rfl
@[simp] theorem State.setArmed_statusOf (t : Track) (l : List GroupNo) (u : Track) : (s.setArmed t l).statusOf u = s.statusOf u := rfl
@[simp] theorem State.setArmed_presenter (t : Track) (l : List GroupNo) (q : Pos) : (s.setArmed t l).presenter q = s.presenter q := rfl
@[simp] theorem State.setArmed_look (t : Track) (l : List GroupNo) (u : Track) : (s.setArmed t l).look u = s.look u := rfl
@[simp] theorem State.setArmed_route (t : Track) (l : List GroupNo) (m : RouteNo) : (s.setArmed t l).route m = s.route m := rfl
@[simp] theorem State.setArmed_channel (t : Track) (l : List GroupNo) (d : Chan) : (s.setArmed t l).channel d = s.channel d := rfl
@[simp] theorem State.setArmed_light (t : Track) (l : List GroupNo) (q : Pos) : (s.setArmed t l).light q = s.light q := rfl
@[simp] theorem State.setArmed_tx (t : Track) (l : List GroupNo) (k : Link) : (s.setArmed t l).tx k = s.tx k := by cases k <;> rfl
@[simp] theorem State.setArmed_rx (t : Track) (l : List GroupNo) (k : RxLink) : (s.setArmed t l).rx k = s.rx k := by cases k <;> rfl

/-! ### setTrack -/

@[simp] theorem State.setTrack_slots (t : Track) (x : TrackRec) : (s.setTrack t x).slots = s.slots := rfl
@[simp] theorem State.setTrack_orders (t : Track) (x : TrackRec) : (s.setTrack t x).orders = s.orders := rfl
@[simp] theorem State.setTrack_groups (t : Track) (x : TrackRec) : (s.setTrack t x).groups = s.groups := rfl
@[simp] theorem State.setTrack_armed (t : Track) (x : TrackRec) : (s.setTrack t x).armed = s.armed := rfl
@[simp] theorem State.setTrack_tracks (t : Track) (x : TrackRec) : (s.setTrack t x).tracks = s.tracks.set t x := rfl
@[simp] theorem State.setTrack_panel (t : Track) (x : TrackRec) : (s.setTrack t x).panel = s.panel := rfl
@[simp] theorem State.setTrack_sfc (t : Track) (x : TrackRec) : (s.setTrack t x).sfc = s.sfc := rfl
@[simp] theorem State.setTrack_reference (t : Track) (x : TrackRec) : (s.setTrack t x).reference = s.reference := rfl
@[simp] theorem State.setTrack_qualifying (t : Track) (x : TrackRec) : (s.setTrack t x).qualifying = s.qualifying := rfl
@[simp] theorem State.setTrack_sinceFrame (t : Track) (x : TrackRec) : (s.setTrack t x).sinceFrame = s.sinceFrame := rfl
@[simp] theorem State.setTrack_sinceTimer (t : Track) (x : TrackRec) : (s.setTrack t x).sinceTimer = s.sinceTimer := rfl
@[simp] theorem State.setTrack_sincePulse (t : Track) (x : TrackRec) : (s.setTrack t x).sincePulse = s.sincePulse := rfl
@[simp] theorem State.setTrack_lastTick (t : Track) (x : TrackRec) : (s.setTrack t x).lastTick = s.lastTick := rfl
@[simp] theorem State.setTrack_status (t : Track) (x : TrackRec) : (s.setTrack t x).status = s.status := rfl
@[simp] theorem State.setTrack_presenters (t : Track) (x : TrackRec) : (s.setTrack t x).presenters = s.presenters := rfl
@[simp] theorem State.setTrack_readsDone (t : Track) (x : TrackRec) : (s.setTrack t x).readsDone = s.readsDone := rfl
@[simp] theorem State.setTrack_firing (t : Track) (x : TrackRec) : (s.setTrack t x).firing = s.firing := rfl
@[simp] theorem State.setTrack_cuesDone (t : Track) (x : TrackRec) : (s.setTrack t x).cuesDone = s.cuesDone := rfl
@[simp] theorem State.setTrack_routes (t : Track) (x : TrackRec) : (s.setTrack t x).routes = s.routes := rfl
@[simp] theorem State.setTrack_isGlobal (t : Track) (x : TrackRec) : (s.setTrack t x).isGlobal = s.isGlobal := rfl
@[simp] theorem State.setTrack_defaultRoute (t : Track) (x : TrackRec) : (s.setTrack t x).defaultRoute = s.defaultRoute := rfl
@[simp] theorem State.setTrack_channels (t : Track) (x : TrackRec) : (s.setTrack t x).channels = s.channels := rfl
@[simp] theorem State.setTrack_lights (t : Track) (x : TrackRec) : (s.setTrack t x).lights = s.lights := rfl
@[simp] theorem State.setTrack_rotation (t : Track) (x : TrackRec) : (s.setTrack t x).rotation = s.rotation := rfl
@[simp] theorem State.setTrack_buffer (t : Track) (x : TrackRec) : (s.setTrack t x).buffer = s.buffer := rfl
@[simp] theorem State.setTrack_flags (t : Track) (x : TrackRec) : (s.setTrack t x).flags = s.flags := rfl
@[simp] theorem State.setTrack_mask (t : Track) (x : TrackRec) : (s.setTrack t x).mask = s.mask := rfl
@[simp] theorem State.setTrack_debounce (t : Track) (x : TrackRec) : (s.setTrack t x).debounce = s.debounce := rfl
@[simp] theorem State.setTrack_frameRate (t : Track) (x : TrackRec) : (s.setTrack t x).frameRate = s.frameRate := rfl
@[simp] theorem State.setTrack_deviceTx (t : Track) (x : TrackRec) : (s.setTrack t x).deviceTx = s.deviceTx := rfl
@[simp] theorem State.setTrack_prompterTx (t : Track) (x : TrackRec) : (s.setTrack t x).prompterTx = s.prompterTx := rfl
@[simp] theorem State.setTrack_displayTx (t : Track) (x : TrackRec) : (s.setTrack t x).displayTx = s.displayTx := rfl
@[simp] theorem State.setTrack_deviceRx (t : Track) (x : TrackRec) : (s.setTrack t x).deviceRx = s.deviceRx := rfl
@[simp] theorem State.setTrack_prompterRx (t : Track) (x : TrackRec) : (s.setTrack t x).prompterRx = s.prompterRx := rfl
@[simp] theorem State.setTrack_held (t : Track) (x : TrackRec) : (s.setTrack t x).held = s.held := rfl
@[simp] theorem State.setTrack_due (t : Track) (x : TrackRec) : (s.setTrack t x).due = s.due := rfl
@[simp] theorem State.setTrack_cut (t : Track) (x : TrackRec) : (s.setTrack t x).cut = s.cut := rfl
@[simp] theorem State.setTrack_counted (t : Track) (x : TrackRec) : (s.setTrack t x).counted = s.counted := rfl
@[simp] theorem State.setTrack_looks (t : Track) (x : TrackRec) : (s.setTrack t x).looks = s.looks := rfl
@[simp] theorem State.setTrack_sdoStatus (t : Track) (x : TrackRec) : (s.setTrack t x).sdoStatus = s.sdoStatus := rfl
@[simp] theorem State.setTrack_sdo (t : Track) (x : TrackRec) : (s.setTrack t x).sdo = s.sdo := rfl
@[simp] theorem State.setTrack_pending (t : Track) (x : TrackRec) : (s.setTrack t x).pending = s.pending := rfl
@[simp] theorem State.setTrack_slot (t : Track) (x : TrackRec) (j : Slot) : (s.setTrack t x).slot j = s.slot j := rfl
@[simp] theorem State.setTrack_order (t : Track) (x : TrackRec) (u : Track) : (s.setTrack t x).order u = s.order u := rfl
@[simp] theorem State.setTrack_group (t : Track) (x : TrackRec) (h : GroupNo) : (s.setTrack t x).group h = s.group h := rfl
@[simp] theorem State.setTrack_armedQueue (t : Track) (x : TrackRec) (u : Track) : (s.setTrack t x).armedQueue u = s.armedQueue u := rfl
@[simp] theorem State.setTrack_track_self (t : Track) (x : TrackRec) : (s.setTrack t x).track t = x := by simp [State.track]
theorem State.setTrack_track_ne (t : Track) (x : TrackRec) {u : Track} (hne : u ≠ t) : (s.setTrack t x).track u = s.track u :=
  PerTrack.get_set_ne _ _ hne
theorem State.setTrack_track (t : Track) (x : TrackRec) (u : Track) : (s.setTrack t x).track u = if u = t then x else s.track u :=
  PerTrack.get_set _ _ _ _
@[simp] theorem State.setTrack_input (t : Track) (x : TrackRec) (j : PanelInput) : (s.setTrack t x).input j = s.input j := rfl
@[simp] theorem State.setTrack_statusOf (t : Track) (x : TrackRec) (u : Track) : (s.setTrack t x).statusOf u = s.statusOf u := rfl
@[simp] theorem State.setTrack_presenter (t : Track) (x : TrackRec) (q : Pos) : (s.setTrack t x).presenter q = s.presenter q := rfl
@[simp] theorem State.setTrack_look (t : Track) (x : TrackRec) (u : Track) : (s.setTrack t x).look u = s.look u := rfl
@[simp] theorem State.setTrack_route (t : Track) (x : TrackRec) (m : RouteNo) : (s.setTrack t x).route m = s.route m := rfl
@[simp] theorem State.setTrack_channel (t : Track) (x : TrackRec) (d : Chan) : (s.setTrack t x).channel d = s.channel d := rfl
@[simp] theorem State.setTrack_light (t : Track) (x : TrackRec) (q : Pos) : (s.setTrack t x).light q = s.light q := rfl
@[simp] theorem State.setTrack_tx (t : Track) (x : TrackRec) (k : Link) : (s.setTrack t x).tx k = s.tx k := by cases k <;> rfl
@[simp] theorem State.setTrack_rx (t : Track) (x : TrackRec) (k : RxLink) : (s.setTrack t x).rx k = s.rx k := by cases k <;> rfl

/-! ### setInput -/

@[simp] theorem State.setInput_slots (i : PanelInput) (x : Panel) : (s.setInput i x).slots = s.slots := rfl
@[simp] theorem State.setInput_orders (i : PanelInput) (x : Panel) : (s.setInput i x).orders = s.orders := rfl
@[simp] theorem State.setInput_groups (i : PanelInput) (x : Panel) : (s.setInput i x).groups = s.groups := rfl
@[simp] theorem State.setInput_armed (i : PanelInput) (x : Panel) : (s.setInput i x).armed = s.armed := rfl
@[simp] theorem State.setInput_tracks (i : PanelInput) (x : Panel) : (s.setInput i x).tracks = s.tracks := rfl
@[simp] theorem State.setInput_panel (i : PanelInput) (x : Panel) : (s.setInput i x).panel = s.panel.set i x := rfl
@[simp] theorem State.setInput_sfc (i : PanelInput) (x : Panel) : (s.setInput i x).sfc = s.sfc := rfl
@[simp] theorem State.setInput_reference (i : PanelInput) (x : Panel) : (s.setInput i x).reference = s.reference := rfl
@[simp] theorem State.setInput_qualifying (i : PanelInput) (x : Panel) : (s.setInput i x).qualifying = s.qualifying := rfl
@[simp] theorem State.setInput_sinceFrame (i : PanelInput) (x : Panel) : (s.setInput i x).sinceFrame = s.sinceFrame := rfl
@[simp] theorem State.setInput_sinceTimer (i : PanelInput) (x : Panel) : (s.setInput i x).sinceTimer = s.sinceTimer := rfl
@[simp] theorem State.setInput_sincePulse (i : PanelInput) (x : Panel) : (s.setInput i x).sincePulse = s.sincePulse := rfl
@[simp] theorem State.setInput_lastTick (i : PanelInput) (x : Panel) : (s.setInput i x).lastTick = s.lastTick := rfl
@[simp] theorem State.setInput_status (i : PanelInput) (x : Panel) : (s.setInput i x).status = s.status := rfl
@[simp] theorem State.setInput_presenters (i : PanelInput) (x : Panel) : (s.setInput i x).presenters = s.presenters := rfl
@[simp] theorem State.setInput_readsDone (i : PanelInput) (x : Panel) : (s.setInput i x).readsDone = s.readsDone := rfl
@[simp] theorem State.setInput_firing (i : PanelInput) (x : Panel) : (s.setInput i x).firing = s.firing := rfl
@[simp] theorem State.setInput_cuesDone (i : PanelInput) (x : Panel) : (s.setInput i x).cuesDone = s.cuesDone := rfl
@[simp] theorem State.setInput_routes (i : PanelInput) (x : Panel) : (s.setInput i x).routes = s.routes := rfl
@[simp] theorem State.setInput_isGlobal (i : PanelInput) (x : Panel) : (s.setInput i x).isGlobal = s.isGlobal := rfl
@[simp] theorem State.setInput_defaultRoute (i : PanelInput) (x : Panel) : (s.setInput i x).defaultRoute = s.defaultRoute := rfl
@[simp] theorem State.setInput_channels (i : PanelInput) (x : Panel) : (s.setInput i x).channels = s.channels := rfl
@[simp] theorem State.setInput_lights (i : PanelInput) (x : Panel) : (s.setInput i x).lights = s.lights := rfl
@[simp] theorem State.setInput_rotation (i : PanelInput) (x : Panel) : (s.setInput i x).rotation = s.rotation := rfl
@[simp] theorem State.setInput_buffer (i : PanelInput) (x : Panel) : (s.setInput i x).buffer = s.buffer := rfl
@[simp] theorem State.setInput_flags (i : PanelInput) (x : Panel) : (s.setInput i x).flags = s.flags := rfl
@[simp] theorem State.setInput_mask (i : PanelInput) (x : Panel) : (s.setInput i x).mask = s.mask := rfl
@[simp] theorem State.setInput_debounce (i : PanelInput) (x : Panel) : (s.setInput i x).debounce = s.debounce := rfl
@[simp] theorem State.setInput_frameRate (i : PanelInput) (x : Panel) : (s.setInput i x).frameRate = s.frameRate := rfl
@[simp] theorem State.setInput_deviceTx (i : PanelInput) (x : Panel) : (s.setInput i x).deviceTx = s.deviceTx := rfl
@[simp] theorem State.setInput_prompterTx (i : PanelInput) (x : Panel) : (s.setInput i x).prompterTx = s.prompterTx := rfl
@[simp] theorem State.setInput_displayTx (i : PanelInput) (x : Panel) : (s.setInput i x).displayTx = s.displayTx := rfl
@[simp] theorem State.setInput_deviceRx (i : PanelInput) (x : Panel) : (s.setInput i x).deviceRx = s.deviceRx := rfl
@[simp] theorem State.setInput_prompterRx (i : PanelInput) (x : Panel) : (s.setInput i x).prompterRx = s.prompterRx := rfl
@[simp] theorem State.setInput_held (i : PanelInput) (x : Panel) : (s.setInput i x).held = s.held := rfl
@[simp] theorem State.setInput_due (i : PanelInput) (x : Panel) : (s.setInput i x).due = s.due := rfl
@[simp] theorem State.setInput_cut (i : PanelInput) (x : Panel) : (s.setInput i x).cut = s.cut := rfl
@[simp] theorem State.setInput_counted (i : PanelInput) (x : Panel) : (s.setInput i x).counted = s.counted := rfl
@[simp] theorem State.setInput_looks (i : PanelInput) (x : Panel) : (s.setInput i x).looks = s.looks := rfl
@[simp] theorem State.setInput_sdoStatus (i : PanelInput) (x : Panel) : (s.setInput i x).sdoStatus = s.sdoStatus := rfl
@[simp] theorem State.setInput_sdo (i : PanelInput) (x : Panel) : (s.setInput i x).sdo = s.sdo := rfl
@[simp] theorem State.setInput_pending (i : PanelInput) (x : Panel) : (s.setInput i x).pending = s.pending := rfl
@[simp] theorem State.setInput_slot (i : PanelInput) (x : Panel) (j : Slot) : (s.setInput i x).slot j = s.slot j := rfl
@[simp] theorem State.setInput_order (i : PanelInput) (x : Panel) (u : Track) : (s.setInput i x).order u = s.order u := rfl
@[simp] theorem State.setInput_group (i : PanelInput) (x : Panel) (h : GroupNo) : (s.setInput i x).group h = s.group h := rfl
@[simp] theorem State.setInput_armedQueue (i : PanelInput) (x : Panel) (u : Track) : (s.setInput i x).armedQueue u = s.armedQueue u := rfl
@[simp] theorem State.setInput_track (i : PanelInput) (x : Panel) (u : Track) : (s.setInput i x).track u = s.track u := rfl
@[simp] theorem State.setInput_input_self (i : PanelInput) (x : Panel) : (s.setInput i x).input i = x := by simp [State.input]
theorem State.setInput_input_ne (i : PanelInput) (x : Panel) {j : PanelInput} (hne : j ≠ i) : (s.setInput i x).input j = s.input j :=
  Bank.get_set_ne _ _ hne
theorem State.setInput_input (i : PanelInput) (x : Panel) (j : PanelInput) : (s.setInput i x).input j = if j = i then x else s.input j :=
  Bank.get_set _ _ _ _
@[simp] theorem State.setInput_statusOf (i : PanelInput) (x : Panel) (u : Track) : (s.setInput i x).statusOf u = s.statusOf u := rfl
@[simp] theorem State.setInput_presenter (i : PanelInput) (x : Panel) (q : Pos) : (s.setInput i x).presenter q = s.presenter q := rfl
@[simp] theorem State.setInput_look (i : PanelInput) (x : Panel) (u : Track) : (s.setInput i x).look u = s.look u := rfl
@[simp] theorem State.setInput_route (i : PanelInput) (x : Panel) (m : RouteNo) : (s.setInput i x).route m = s.route m := rfl
@[simp] theorem State.setInput_channel (i : PanelInput) (x : Panel) (d : Chan) : (s.setInput i x).channel d = s.channel d := rfl
@[simp] theorem State.setInput_light (i : PanelInput) (x : Panel) (q : Pos) : (s.setInput i x).light q = s.light q := rfl
@[simp] theorem State.setInput_tx (i : PanelInput) (x : Panel) (k : Link) : (s.setInput i x).tx k = s.tx k := by cases k <;> rfl
@[simp] theorem State.setInput_rx (i : PanelInput) (x : Panel) (k : RxLink) : (s.setInput i x).rx k = s.rx k := by cases k <;> rfl

/-! ### setStatus -/

@[simp] theorem State.setStatus_slots (t : Track) (x : Status) : (s.setStatus t x).slots = s.slots := rfl
@[simp] theorem State.setStatus_orders (t : Track) (x : Status) : (s.setStatus t x).orders = s.orders := rfl
@[simp] theorem State.setStatus_groups (t : Track) (x : Status) : (s.setStatus t x).groups = s.groups := rfl
@[simp] theorem State.setStatus_armed (t : Track) (x : Status) : (s.setStatus t x).armed = s.armed := rfl
@[simp] theorem State.setStatus_tracks (t : Track) (x : Status) : (s.setStatus t x).tracks = s.tracks := rfl
@[simp] theorem State.setStatus_panel (t : Track) (x : Status) : (s.setStatus t x).panel = s.panel := rfl
@[simp] theorem State.setStatus_sfc (t : Track) (x : Status) : (s.setStatus t x).sfc = s.sfc := rfl
@[simp] theorem State.setStatus_reference (t : Track) (x : Status) : (s.setStatus t x).reference = s.reference := rfl
@[simp] theorem State.setStatus_qualifying (t : Track) (x : Status) : (s.setStatus t x).qualifying = s.qualifying := rfl
@[simp] theorem State.setStatus_sinceFrame (t : Track) (x : Status) : (s.setStatus t x).sinceFrame = s.sinceFrame := rfl
@[simp] theorem State.setStatus_sinceTimer (t : Track) (x : Status) : (s.setStatus t x).sinceTimer = s.sinceTimer := rfl
@[simp] theorem State.setStatus_sincePulse (t : Track) (x : Status) : (s.setStatus t x).sincePulse = s.sincePulse := rfl
@[simp] theorem State.setStatus_lastTick (t : Track) (x : Status) : (s.setStatus t x).lastTick = s.lastTick := rfl
@[simp] theorem State.setStatus_status (t : Track) (x : Status) : (s.setStatus t x).status = s.status.set t x := rfl
@[simp] theorem State.setStatus_presenters (t : Track) (x : Status) : (s.setStatus t x).presenters = s.presenters := rfl
@[simp] theorem State.setStatus_readsDone (t : Track) (x : Status) : (s.setStatus t x).readsDone = s.readsDone := rfl
@[simp] theorem State.setStatus_firing (t : Track) (x : Status) : (s.setStatus t x).firing = s.firing := rfl
@[simp] theorem State.setStatus_cuesDone (t : Track) (x : Status) : (s.setStatus t x).cuesDone = s.cuesDone := rfl
@[simp] theorem State.setStatus_routes (t : Track) (x : Status) : (s.setStatus t x).routes = s.routes := rfl
@[simp] theorem State.setStatus_isGlobal (t : Track) (x : Status) : (s.setStatus t x).isGlobal = s.isGlobal := rfl
@[simp] theorem State.setStatus_defaultRoute (t : Track) (x : Status) : (s.setStatus t x).defaultRoute = s.defaultRoute := rfl
@[simp] theorem State.setStatus_channels (t : Track) (x : Status) : (s.setStatus t x).channels = s.channels := rfl
@[simp] theorem State.setStatus_lights (t : Track) (x : Status) : (s.setStatus t x).lights = s.lights := rfl
@[simp] theorem State.setStatus_rotation (t : Track) (x : Status) : (s.setStatus t x).rotation = s.rotation := rfl
@[simp] theorem State.setStatus_buffer (t : Track) (x : Status) : (s.setStatus t x).buffer = s.buffer := rfl
@[simp] theorem State.setStatus_flags (t : Track) (x : Status) : (s.setStatus t x).flags = s.flags := rfl
@[simp] theorem State.setStatus_mask (t : Track) (x : Status) : (s.setStatus t x).mask = s.mask := rfl
@[simp] theorem State.setStatus_debounce (t : Track) (x : Status) : (s.setStatus t x).debounce = s.debounce := rfl
@[simp] theorem State.setStatus_frameRate (t : Track) (x : Status) : (s.setStatus t x).frameRate = s.frameRate := rfl
@[simp] theorem State.setStatus_deviceTx (t : Track) (x : Status) : (s.setStatus t x).deviceTx = s.deviceTx := rfl
@[simp] theorem State.setStatus_prompterTx (t : Track) (x : Status) : (s.setStatus t x).prompterTx = s.prompterTx := rfl
@[simp] theorem State.setStatus_displayTx (t : Track) (x : Status) : (s.setStatus t x).displayTx = s.displayTx := rfl
@[simp] theorem State.setStatus_deviceRx (t : Track) (x : Status) : (s.setStatus t x).deviceRx = s.deviceRx := rfl
@[simp] theorem State.setStatus_prompterRx (t : Track) (x : Status) : (s.setStatus t x).prompterRx = s.prompterRx := rfl
@[simp] theorem State.setStatus_held (t : Track) (x : Status) : (s.setStatus t x).held = s.held := rfl
@[simp] theorem State.setStatus_due (t : Track) (x : Status) : (s.setStatus t x).due = s.due := rfl
@[simp] theorem State.setStatus_cut (t : Track) (x : Status) : (s.setStatus t x).cut = s.cut := rfl
@[simp] theorem State.setStatus_counted (t : Track) (x : Status) : (s.setStatus t x).counted = s.counted := rfl
@[simp] theorem State.setStatus_looks (t : Track) (x : Status) : (s.setStatus t x).looks = s.looks := rfl
@[simp] theorem State.setStatus_sdoStatus (t : Track) (x : Status) : (s.setStatus t x).sdoStatus = s.sdoStatus := rfl
@[simp] theorem State.setStatus_sdo (t : Track) (x : Status) : (s.setStatus t x).sdo = s.sdo := rfl
@[simp] theorem State.setStatus_pending (t : Track) (x : Status) : (s.setStatus t x).pending = s.pending := rfl
@[simp] theorem State.setStatus_slot (t : Track) (x : Status) (j : Slot) : (s.setStatus t x).slot j = s.slot j := rfl
@[simp] theorem State.setStatus_order (t : Track) (x : Status) (u : Track) : (s.setStatus t x).order u = s.order u := rfl
@[simp] theorem State.setStatus_group (t : Track) (x : Status) (h : GroupNo) : (s.setStatus t x).group h = s.group h := rfl
@[simp] theorem State.setStatus_armedQueue (t : Track) (x : Status) (u : Track) : (s.setStatus t x).armedQueue u = s.armedQueue u := rfl
@[simp] theorem State.setStatus_track (t : Track) (x : Status) (u : Track) : (s.setStatus t x).track u = s.track u := rfl
@[simp] theorem State.setStatus_input (t : Track) (x : Status) (j : PanelInput) : (s.setStatus t x).input j = s.input j := rfl
@[simp] theorem State.setStatus_statusOf_self (t : Track) (x : Status) : (s.setStatus t x).statusOf t = x := by simp [State.statusOf]
theorem State.setStatus_statusOf_ne (t : Track) (x : Status) {u : Track} (hne : u ≠ t) : (s.setStatus t x).statusOf u = s.statusOf u :=
  PerTrack.get_set_ne _ _ hne
theorem State.setStatus_statusOf (t : Track) (x : Status) (u : Track) : (s.setStatus t x).statusOf u = if u = t then x else s.statusOf u :=
  PerTrack.get_set _ _ _ _
@[simp] theorem State.setStatus_presenter (t : Track) (x : Status) (q : Pos) : (s.setStatus t x).presenter q = s.presenter q := rfl
@[simp] theorem State.setStatus_look (t : Track) (x : Status) (u : Track) : (s.setStatus t x).look u = s.look u := rfl
@[simp] theorem State.setStatus_route (t : Track) (x : Status) (m : RouteNo) : (s.setStatus t x).route m = s.route m := rfl
@[simp] theorem State.setStatus_channel (t : Track) (x : Status) (d : Chan) : (s.setStatus t x).channel d = s.channel d := rfl
@[simp] theorem State.setStatus_light (t : Track) (x : Status) (q : Pos) : (s.setStatus t x).light q = s.light q := rfl
@[simp] theorem State.setStatus_tx (t : Track) (x : Status) (k : Link) : (s.setStatus t x).tx k = s.tx k := by cases k <;> rfl
@[simp] theorem State.setStatus_rx (t : Track) (x : Status) (k : RxLink) : (s.setStatus t x).rx k = s.rx k := by cases k <;> rfl

/-! ### setPresenter -/

@[simp] theorem State.setPresenter_slots (p : Pos) (x : Presenter) : (s.setPresenter p x).slots = s.slots := rfl
@[simp] theorem State.setPresenter_orders (p : Pos) (x : Presenter) : (s.setPresenter p x).orders = s.orders := rfl
@[simp] theorem State.setPresenter_groups (p : Pos) (x : Presenter) : (s.setPresenter p x).groups = s.groups := rfl
@[simp] theorem State.setPresenter_armed (p : Pos) (x : Presenter) : (s.setPresenter p x).armed = s.armed := rfl
@[simp] theorem State.setPresenter_tracks (p : Pos) (x : Presenter) : (s.setPresenter p x).tracks = s.tracks := rfl
@[simp] theorem State.setPresenter_panel (p : Pos) (x : Presenter) : (s.setPresenter p x).panel = s.panel := rfl
@[simp] theorem State.setPresenter_sfc (p : Pos) (x : Presenter) : (s.setPresenter p x).sfc = s.sfc := rfl
@[simp] theorem State.setPresenter_reference (p : Pos) (x : Presenter) : (s.setPresenter p x).reference = s.reference := rfl
@[simp] theorem State.setPresenter_qualifying (p : Pos) (x : Presenter) : (s.setPresenter p x).qualifying = s.qualifying := rfl
@[simp] theorem State.setPresenter_sinceFrame (p : Pos) (x : Presenter) : (s.setPresenter p x).sinceFrame = s.sinceFrame := rfl
@[simp] theorem State.setPresenter_sinceTimer (p : Pos) (x : Presenter) : (s.setPresenter p x).sinceTimer = s.sinceTimer := rfl
@[simp] theorem State.setPresenter_sincePulse (p : Pos) (x : Presenter) : (s.setPresenter p x).sincePulse = s.sincePulse := rfl
@[simp] theorem State.setPresenter_lastTick (p : Pos) (x : Presenter) : (s.setPresenter p x).lastTick = s.lastTick := rfl
@[simp] theorem State.setPresenter_status (p : Pos) (x : Presenter) : (s.setPresenter p x).status = s.status := rfl
@[simp] theorem State.setPresenter_presenters (p : Pos) (x : Presenter) : (s.setPresenter p x).presenters = s.presenters.set p x := rfl
@[simp] theorem State.setPresenter_readsDone (p : Pos) (x : Presenter) : (s.setPresenter p x).readsDone = s.readsDone := rfl
@[simp] theorem State.setPresenter_firing (p : Pos) (x : Presenter) : (s.setPresenter p x).firing = s.firing := rfl
@[simp] theorem State.setPresenter_cuesDone (p : Pos) (x : Presenter) : (s.setPresenter p x).cuesDone = s.cuesDone := rfl
@[simp] theorem State.setPresenter_routes (p : Pos) (x : Presenter) : (s.setPresenter p x).routes = s.routes := rfl
@[simp] theorem State.setPresenter_isGlobal (p : Pos) (x : Presenter) : (s.setPresenter p x).isGlobal = s.isGlobal := rfl
@[simp] theorem State.setPresenter_defaultRoute (p : Pos) (x : Presenter) : (s.setPresenter p x).defaultRoute = s.defaultRoute := rfl
@[simp] theorem State.setPresenter_channels (p : Pos) (x : Presenter) : (s.setPresenter p x).channels = s.channels := rfl
@[simp] theorem State.setPresenter_lights (p : Pos) (x : Presenter) : (s.setPresenter p x).lights = s.lights := rfl
@[simp] theorem State.setPresenter_rotation (p : Pos) (x : Presenter) : (s.setPresenter p x).rotation = s.rotation := rfl
@[simp] theorem State.setPresenter_buffer (p : Pos) (x : Presenter) : (s.setPresenter p x).buffer = s.buffer := rfl
@[simp] theorem State.setPresenter_flags (p : Pos) (x : Presenter) : (s.setPresenter p x).flags = s.flags := rfl
@[simp] theorem State.setPresenter_mask (p : Pos) (x : Presenter) : (s.setPresenter p x).mask = s.mask := rfl
@[simp] theorem State.setPresenter_debounce (p : Pos) (x : Presenter) : (s.setPresenter p x).debounce = s.debounce := rfl
@[simp] theorem State.setPresenter_frameRate (p : Pos) (x : Presenter) : (s.setPresenter p x).frameRate = s.frameRate := rfl
@[simp] theorem State.setPresenter_deviceTx (p : Pos) (x : Presenter) : (s.setPresenter p x).deviceTx = s.deviceTx := rfl
@[simp] theorem State.setPresenter_prompterTx (p : Pos) (x : Presenter) : (s.setPresenter p x).prompterTx = s.prompterTx := rfl
@[simp] theorem State.setPresenter_displayTx (p : Pos) (x : Presenter) : (s.setPresenter p x).displayTx = s.displayTx := rfl
@[simp] theorem State.setPresenter_deviceRx (p : Pos) (x : Presenter) : (s.setPresenter p x).deviceRx = s.deviceRx := rfl
@[simp] theorem State.setPresenter_prompterRx (p : Pos) (x : Presenter) : (s.setPresenter p x).prompterRx = s.prompterRx := rfl
@[simp] theorem State.setPresenter_held (p : Pos) (x : Presenter) : (s.setPresenter p x).held = s.held := rfl
@[simp] theorem State.setPresenter_due (p : Pos) (x : Presenter) : (s.setPresenter p x).due = s.due := rfl
@[simp] theorem State.setPresenter_cut (p : Pos) (x : Presenter) : (s.setPresenter p x).cut = s.cut := rfl
@[simp] theorem State.setPresenter_counted (p : Pos) (x : Presenter) : (s.setPresenter p x).counted = s.counted := rfl
@[simp] theorem State.setPresenter_looks (p : Pos) (x : Presenter) : (s.setPresenter p x).looks = s.looks := rfl
@[simp] theorem State.setPresenter_sdoStatus (p : Pos) (x : Presenter) : (s.setPresenter p x).sdoStatus = s.sdoStatus := rfl
@[simp] theorem State.setPresenter_sdo (p : Pos) (x : Presenter) : (s.setPresenter p x).sdo = s.sdo := rfl
@[simp] theorem State.setPresenter_pending (p : Pos) (x : Presenter) : (s.setPresenter p x).pending = s.pending := rfl
@[simp] theorem State.setPresenter_slot (p : Pos) (x : Presenter) (j : Slot) : (s.setPresenter p x).slot j = s.slot j := rfl
@[simp] theorem State.setPresenter_order (p : Pos) (x : Presenter) (u : Track) : (s.setPresenter p x).order u = s.order u := rfl
@[simp] theorem State.setPresenter_group (p : Pos) (x : Presenter) (h : GroupNo) : (s.setPresenter p x).group h = s.group h := rfl
@[simp] theorem State.setPresenter_armedQueue (p : Pos) (x : Presenter) (u : Track) : (s.setPresenter p x).armedQueue u = s.armedQueue u := rfl
@[simp] theorem State.setPresenter_track (p : Pos) (x : Presenter) (u : Track) : (s.setPresenter p x).track u = s.track u := rfl
@[simp] theorem State.setPresenter_input (p : Pos) (x : Presenter) (j : PanelInput) : (s.setPresenter p x).input j = s.input j := rfl
@[simp] theorem State.setPresenter_statusOf (p : Pos) (x : Presenter) (u : Track) : (s.setPresenter p x).statusOf u = s.statusOf u := rfl
@[simp] theorem State.setPresenter_look (p : Pos) (x : Presenter) (u : Track) : (s.setPresenter p x).look u = s.look u := rfl
@[simp] theorem State.setPresenter_presenter_self (p : Pos) (x : Presenter) : (s.setPresenter p x).presenter p = x := by simp [State.presenter]
theorem State.setPresenter_presenter_ne (p : Pos) (x : Presenter) {q : Pos} (hne : q ≠ p) : (s.setPresenter p x).presenter q = s.presenter q :=
  Bank.get_set_ne _ _ hne
theorem State.setPresenter_presenter (p : Pos) (x : Presenter) (q : Pos) : (s.setPresenter p x).presenter q = if q = p then x else s.presenter q :=
  Bank.get_set _ _ _ _
@[simp] theorem State.setPresenter_route (p : Pos) (x : Presenter) (m : RouteNo) : (s.setPresenter p x).route m = s.route m := rfl
@[simp] theorem State.setPresenter_channel (p : Pos) (x : Presenter) (d : Chan) : (s.setPresenter p x).channel d = s.channel d := rfl
@[simp] theorem State.setPresenter_light (p : Pos) (x : Presenter) (q : Pos) : (s.setPresenter p x).light q = s.light q := rfl
@[simp] theorem State.setPresenter_tx (p : Pos) (x : Presenter) (k : Link) : (s.setPresenter p x).tx k = s.tx k := by cases k <;> rfl
@[simp] theorem State.setPresenter_rx (p : Pos) (x : Presenter) (k : RxLink) : (s.setPresenter p x).rx k = s.rx k := by cases k <;> rfl

/-! ### setRoute -/

@[simp] theorem State.setRoute_slots (n : RouteNo) (x : Route) : (s.setRoute n x).slots = s.slots := rfl
@[simp] theorem State.setRoute_orders (n : RouteNo) (x : Route) : (s.setRoute n x).orders = s.orders := rfl
@[simp] theorem State.setRoute_groups (n : RouteNo) (x : Route) : (s.setRoute n x).groups = s.groups := rfl
@[simp] theorem State.setRoute_armed (n : RouteNo) (x : Route) : (s.setRoute n x).armed = s.armed := rfl
@[simp] theorem State.setRoute_tracks (n : RouteNo) (x : Route) : (s.setRoute n x).tracks = s.tracks := rfl
@[simp] theorem State.setRoute_panel (n : RouteNo) (x : Route) : (s.setRoute n x).panel = s.panel := rfl
@[simp] theorem State.setRoute_sfc (n : RouteNo) (x : Route) : (s.setRoute n x).sfc = s.sfc := rfl
@[simp] theorem State.setRoute_reference (n : RouteNo) (x : Route) : (s.setRoute n x).reference = s.reference := rfl
@[simp] theorem State.setRoute_qualifying (n : RouteNo) (x : Route) : (s.setRoute n x).qualifying = s.qualifying := rfl
@[simp] theorem State.setRoute_sinceFrame (n : RouteNo) (x : Route) : (s.setRoute n x).sinceFrame = s.sinceFrame := rfl
@[simp] theorem State.setRoute_sinceTimer (n : RouteNo) (x : Route) : (s.setRoute n x).sinceTimer = s.sinceTimer := rfl
@[simp] theorem State.setRoute_sincePulse (n : RouteNo) (x : Route) : (s.setRoute n x).sincePulse = s.sincePulse := rfl
@[simp] theorem State.setRoute_lastTick (n : RouteNo) (x : Route) : (s.setRoute n x).lastTick = s.lastTick := rfl
@[simp] theorem State.setRoute_status (n : RouteNo) (x : Route) : (s.setRoute n x).status = s.status := rfl
@[simp] theorem State.setRoute_presenters (n : RouteNo) (x : Route) : (s.setRoute n x).presenters = s.presenters := rfl
@[simp] theorem State.setRoute_readsDone (n : RouteNo) (x : Route) : (s.setRoute n x).readsDone = s.readsDone := rfl
@[simp] theorem State.setRoute_firing (n : RouteNo) (x : Route) : (s.setRoute n x).firing = s.firing := rfl
@[simp] theorem State.setRoute_cuesDone (n : RouteNo) (x : Route) : (s.setRoute n x).cuesDone = s.cuesDone := rfl
@[simp] theorem State.setRoute_routes (n : RouteNo) (x : Route) : (s.setRoute n x).routes = s.routes.set n x := rfl
@[simp] theorem State.setRoute_isGlobal (n : RouteNo) (x : Route) : (s.setRoute n x).isGlobal = s.isGlobal := rfl
@[simp] theorem State.setRoute_defaultRoute (n : RouteNo) (x : Route) : (s.setRoute n x).defaultRoute = s.defaultRoute := rfl
@[simp] theorem State.setRoute_channels (n : RouteNo) (x : Route) : (s.setRoute n x).channels = s.channels := rfl
@[simp] theorem State.setRoute_lights (n : RouteNo) (x : Route) : (s.setRoute n x).lights = s.lights := rfl
@[simp] theorem State.setRoute_rotation (n : RouteNo) (x : Route) : (s.setRoute n x).rotation = s.rotation := rfl
@[simp] theorem State.setRoute_buffer (n : RouteNo) (x : Route) : (s.setRoute n x).buffer = s.buffer := rfl
@[simp] theorem State.setRoute_flags (n : RouteNo) (x : Route) : (s.setRoute n x).flags = s.flags := rfl
@[simp] theorem State.setRoute_mask (n : RouteNo) (x : Route) : (s.setRoute n x).mask = s.mask := rfl
@[simp] theorem State.setRoute_debounce (n : RouteNo) (x : Route) : (s.setRoute n x).debounce = s.debounce := rfl
@[simp] theorem State.setRoute_frameRate (n : RouteNo) (x : Route) : (s.setRoute n x).frameRate = s.frameRate := rfl
@[simp] theorem State.setRoute_deviceTx (n : RouteNo) (x : Route) : (s.setRoute n x).deviceTx = s.deviceTx := rfl
@[simp] theorem State.setRoute_prompterTx (n : RouteNo) (x : Route) : (s.setRoute n x).prompterTx = s.prompterTx := rfl
@[simp] theorem State.setRoute_displayTx (n : RouteNo) (x : Route) : (s.setRoute n x).displayTx = s.displayTx := rfl
@[simp] theorem State.setRoute_deviceRx (n : RouteNo) (x : Route) : (s.setRoute n x).deviceRx = s.deviceRx := rfl
@[simp] theorem State.setRoute_prompterRx (n : RouteNo) (x : Route) : (s.setRoute n x).prompterRx = s.prompterRx := rfl
@[simp] theorem State.setRoute_held (n : RouteNo) (x : Route) : (s.setRoute n x).held = s.held := rfl
@[simp] theorem State.setRoute_due (n : RouteNo) (x : Route) : (s.setRoute n x).due = s.due := rfl
@[simp] theorem State.setRoute_cut (n : RouteNo) (x : Route) : (s.setRoute n x).cut = s.cut := rfl
@[simp] theorem State.setRoute_counted (n : RouteNo) (x : Route) : (s.setRoute n x).counted = s.counted := rfl
@[simp] theorem State.setRoute_looks (n : RouteNo) (x : Route) : (s.setRoute n x).looks = s.looks := rfl
@[simp] theorem State.setRoute_sdoStatus (n : RouteNo) (x : Route) : (s.setRoute n x).sdoStatus = s.sdoStatus := rfl
@[simp] theorem State.setRoute_sdo (n : RouteNo) (x : Route) : (s.setRoute n x).sdo = s.sdo := rfl
@[simp] theorem State.setRoute_pending (n : RouteNo) (x : Route) : (s.setRoute n x).pending = s.pending := rfl
@[simp] theorem State.setRoute_slot (n : RouteNo) (x : Route) (j : Slot) : (s.setRoute n x).slot j = s.slot j := rfl
@[simp] theorem State.setRoute_order (n : RouteNo) (x : Route) (u : Track) : (s.setRoute n x).order u = s.order u := rfl
@[simp] theorem State.setRoute_group (n : RouteNo) (x : Route) (h : GroupNo) : (s.setRoute n x).group h = s.group h := rfl
@[simp] theorem State.setRoute_armedQueue (n : RouteNo) (x : Route) (u : Track) : (s.setRoute n x).armedQueue u = s.armedQueue u := rfl
@[simp] theorem State.setRoute_track (n : RouteNo) (x : Route) (u : Track) : (s.setRoute n x).track u = s.track u := rfl
@[simp] theorem State.setRoute_input (n : RouteNo) (x : Route) (j : PanelInput) : (s.setRoute n x).input j = s.input j := rfl
@[simp] theorem State.setRoute_statusOf (n : RouteNo) (x : Route) (u : Track) : (s.setRoute n x).statusOf u = s.statusOf u := rfl
@[simp] theorem State.setRoute_presenter (n : RouteNo) (x : Route) (q : Pos) : (s.setRoute n x).presenter q = s.presenter q := rfl
@[simp] theorem State.setRoute_look (n : RouteNo) (x : Route) (u : Track) : (s.setRoute n x).look u = s.look u := rfl
@[simp] theorem State.setRoute_route_self (n : RouteNo) (x : Route) : (s.setRoute n x).route n = x := by simp [State.route]
theorem State.setRoute_route_ne (n : RouteNo) (x : Route) {m : RouteNo} (hne : m ≠ n) : (s.setRoute n x).route m = s.route m :=
  Bank.get_set_ne _ _ hne
theorem State.setRoute_route (n : RouteNo) (x : Route) (m : RouteNo) : (s.setRoute n x).route m = if m = n then x else s.route m :=
  Bank.get_set _ _ _ _
@[simp] theorem State.setRoute_channel (n : RouteNo) (x : Route) (d : Chan) : (s.setRoute n x).channel d = s.channel d := rfl
@[simp] theorem State.setRoute_light (n : RouteNo) (x : Route) (q : Pos) : (s.setRoute n x).light q = s.light q := rfl
@[simp] theorem State.setRoute_tx (n : RouteNo) (x : Route) (k : Link) : (s.setRoute n x).tx k = s.tx k := by cases k <;> rfl
@[simp] theorem State.setRoute_rx (n : RouteNo) (x : Route) (k : RxLink) : (s.setRoute n x).rx k = s.rx k := by cases k <;> rfl

/-! ### setChannel -/

@[simp] theorem State.setChannel_slots (c : Chan) (x : Channel) : (s.setChannel c x).slots = s.slots := rfl
@[simp] theorem State.setChannel_orders (c : Chan) (x : Channel) : (s.setChannel c x).orders = s.orders := rfl
@[simp] theorem State.setChannel_groups (c : Chan) (x : Channel) : (s.setChannel c x).groups = s.groups := rfl
@[simp] theorem State.setChannel_armed (c : Chan) (x : Channel) : (s.setChannel c x).armed = s.armed := rfl
@[simp] theorem State.setChannel_tracks (c : Chan) (x : Channel) : (s.setChannel c x).tracks = s.tracks := rfl
@[simp] theorem State.setChannel_panel (c : Chan) (x : Channel) : (s.setChannel c x).panel = s.panel := rfl
@[simp] theorem State.setChannel_sfc (c : Chan) (x : Channel) : (s.setChannel c x).sfc = s.sfc := rfl
@[simp] theorem State.setChannel_reference (c : Chan) (x : Channel) : (s.setChannel c x).reference = s.reference := rfl
@[simp] theorem State.setChannel_qualifying (c : Chan) (x : Channel) : (s.setChannel c x).qualifying = s.qualifying := rfl
@[simp] theorem State.setChannel_sinceFrame (c : Chan) (x : Channel) : (s.setChannel c x).sinceFrame = s.sinceFrame := rfl
@[simp] theorem State.setChannel_sinceTimer (c : Chan) (x : Channel) : (s.setChannel c x).sinceTimer = s.sinceTimer := rfl
@[simp] theorem State.setChannel_sincePulse (c : Chan) (x : Channel) : (s.setChannel c x).sincePulse = s.sincePulse := rfl
@[simp] theorem State.setChannel_lastTick (c : Chan) (x : Channel) : (s.setChannel c x).lastTick = s.lastTick := rfl
@[simp] theorem State.setChannel_status (c : Chan) (x : Channel) : (s.setChannel c x).status = s.status := rfl
@[simp] theorem State.setChannel_presenters (c : Chan) (x : Channel) : (s.setChannel c x).presenters = s.presenters := rfl
@[simp] theorem State.setChannel_readsDone (c : Chan) (x : Channel) : (s.setChannel c x).readsDone = s.readsDone := rfl
@[simp] theorem State.setChannel_firing (c : Chan) (x : Channel) : (s.setChannel c x).firing = s.firing := rfl
@[simp] theorem State.setChannel_cuesDone (c : Chan) (x : Channel) : (s.setChannel c x).cuesDone = s.cuesDone := rfl
@[simp] theorem State.setChannel_routes (c : Chan) (x : Channel) : (s.setChannel c x).routes = s.routes := rfl
@[simp] theorem State.setChannel_isGlobal (c : Chan) (x : Channel) : (s.setChannel c x).isGlobal = s.isGlobal := rfl
@[simp] theorem State.setChannel_defaultRoute (c : Chan) (x : Channel) : (s.setChannel c x).defaultRoute = s.defaultRoute := rfl
@[simp] theorem State.setChannel_channels (c : Chan) (x : Channel) : (s.setChannel c x).channels = s.channels.set c x := rfl
@[simp] theorem State.setChannel_lights (c : Chan) (x : Channel) : (s.setChannel c x).lights = s.lights := rfl
@[simp] theorem State.setChannel_rotation (c : Chan) (x : Channel) : (s.setChannel c x).rotation = s.rotation := rfl
@[simp] theorem State.setChannel_buffer (c : Chan) (x : Channel) : (s.setChannel c x).buffer = s.buffer := rfl
@[simp] theorem State.setChannel_flags (c : Chan) (x : Channel) : (s.setChannel c x).flags = s.flags := rfl
@[simp] theorem State.setChannel_mask (c : Chan) (x : Channel) : (s.setChannel c x).mask = s.mask := rfl
@[simp] theorem State.setChannel_debounce (c : Chan) (x : Channel) : (s.setChannel c x).debounce = s.debounce := rfl
@[simp] theorem State.setChannel_frameRate (c : Chan) (x : Channel) : (s.setChannel c x).frameRate = s.frameRate := rfl
@[simp] theorem State.setChannel_deviceTx (c : Chan) (x : Channel) : (s.setChannel c x).deviceTx = s.deviceTx := rfl
@[simp] theorem State.setChannel_prompterTx (c : Chan) (x : Channel) : (s.setChannel c x).prompterTx = s.prompterTx := rfl
@[simp] theorem State.setChannel_displayTx (c : Chan) (x : Channel) : (s.setChannel c x).displayTx = s.displayTx := rfl
@[simp] theorem State.setChannel_deviceRx (c : Chan) (x : Channel) : (s.setChannel c x).deviceRx = s.deviceRx := rfl
@[simp] theorem State.setChannel_prompterRx (c : Chan) (x : Channel) : (s.setChannel c x).prompterRx = s.prompterRx := rfl
@[simp] theorem State.setChannel_held (c : Chan) (x : Channel) : (s.setChannel c x).held = s.held := rfl
@[simp] theorem State.setChannel_due (c : Chan) (x : Channel) : (s.setChannel c x).due = s.due := rfl
@[simp] theorem State.setChannel_cut (c : Chan) (x : Channel) : (s.setChannel c x).cut = s.cut := rfl
@[simp] theorem State.setChannel_counted (c : Chan) (x : Channel) : (s.setChannel c x).counted = s.counted := rfl
@[simp] theorem State.setChannel_looks (c : Chan) (x : Channel) : (s.setChannel c x).looks = s.looks := rfl
@[simp] theorem State.setChannel_sdoStatus (c : Chan) (x : Channel) : (s.setChannel c x).sdoStatus = s.sdoStatus := rfl
@[simp] theorem State.setChannel_sdo (c : Chan) (x : Channel) : (s.setChannel c x).sdo = s.sdo := rfl
@[simp] theorem State.setChannel_pending (c : Chan) (x : Channel) : (s.setChannel c x).pending = s.pending := rfl
@[simp] theorem State.setChannel_slot (c : Chan) (x : Channel) (j : Slot) : (s.setChannel c x).slot j = s.slot j := rfl
@[simp] theorem State.setChannel_order (c : Chan) (x : Channel) (u : Track) : (s.setChannel c x).order u = s.order u := rfl
@[simp] theorem State.setChannel_group (c : Chan) (x : Channel) (h : GroupNo) : (s.setChannel c x).group h = s.group h := rfl
@[simp] theorem State.setChannel_armedQueue (c : Chan) (x : Channel) (u : Track) : (s.setChannel c x).armedQueue u = s.armedQueue u := rfl
@[simp] theorem State.setChannel_track (c : Chan) (x : Channel) (u : Track) : (s.setChannel c x).track u = s.track u := rfl
@[simp] theorem State.setChannel_input (c : Chan) (x : Channel) (j : PanelInput) : (s.setChannel c x).input j = s.input j := rfl
@[simp] theorem State.setChannel_statusOf (c : Chan) (x : Channel) (u : Track) : (s.setChannel c x).statusOf u = s.statusOf u := rfl
@[simp] theorem State.setChannel_presenter (c : Chan) (x : Channel) (q : Pos) : (s.setChannel c x).presenter q = s.presenter q := rfl
@[simp] theorem State.setChannel_look (c : Chan) (x : Channel) (u : Track) : (s.setChannel c x).look u = s.look u := rfl
@[simp] theorem State.setChannel_route (c : Chan) (x : Channel) (m : RouteNo) : (s.setChannel c x).route m = s.route m := rfl
@[simp] theorem State.setChannel_channel_self (c : Chan) (x : Channel) : (s.setChannel c x).channel c = x := by simp [State.channel]
theorem State.setChannel_channel_ne (c : Chan) (x : Channel) {d : Chan} (hne : d ≠ c) : (s.setChannel c x).channel d = s.channel d :=
  Bank.get_set_ne _ _ hne
theorem State.setChannel_channel (c : Chan) (x : Channel) (d : Chan) : (s.setChannel c x).channel d = if d = c then x else s.channel d :=
  Bank.get_set _ _ _ _
@[simp] theorem State.setChannel_light (c : Chan) (x : Channel) (q : Pos) : (s.setChannel c x).light q = s.light q := rfl
@[simp] theorem State.setChannel_tx (c : Chan) (x : Channel) (k : Link) : (s.setChannel c x).tx k = s.tx k := by cases k <;> rfl
@[simp] theorem State.setChannel_rx (c : Chan) (x : Channel) (k : RxLink) : (s.setChannel c x).rx k = s.rx k := by cases k <;> rfl

/-! ### setLight -/

@[simp] theorem State.setLight_slots (p : Pos) (x : Light) : (s.setLight p x).slots = s.slots := rfl
@[simp] theorem State.setLight_orders (p : Pos) (x : Light) : (s.setLight p x).orders = s.orders := rfl
@[simp] theorem State.setLight_groups (p : Pos) (x : Light) : (s.setLight p x).groups = s.groups := rfl
@[simp] theorem State.setLight_armed (p : Pos) (x : Light) : (s.setLight p x).armed = s.armed := rfl
@[simp] theorem State.setLight_tracks (p : Pos) (x : Light) : (s.setLight p x).tracks = s.tracks := rfl
@[simp] theorem State.setLight_panel (p : Pos) (x : Light) : (s.setLight p x).panel = s.panel := rfl
@[simp] theorem State.setLight_sfc (p : Pos) (x : Light) : (s.setLight p x).sfc = s.sfc := rfl
@[simp] theorem State.setLight_reference (p : Pos) (x : Light) : (s.setLight p x).reference = s.reference := rfl
@[simp] theorem State.setLight_qualifying (p : Pos) (x : Light) : (s.setLight p x).qualifying = s.qualifying := rfl
@[simp] theorem State.setLight_sinceFrame (p : Pos) (x : Light) : (s.setLight p x).sinceFrame = s.sinceFrame := rfl
@[simp] theorem State.setLight_sinceTimer (p : Pos) (x : Light) : (s.setLight p x).sinceTimer = s.sinceTimer := rfl
@[simp] theorem State.setLight_sincePulse (p : Pos) (x : Light) : (s.setLight p x).sincePulse = s.sincePulse := rfl
@[simp] theorem State.setLight_lastTick (p : Pos) (x : Light) : (s.setLight p x).lastTick = s.lastTick := rfl
@[simp] theorem State.setLight_status (p : Pos) (x : Light) : (s.setLight p x).status = s.status := rfl
@[simp] theorem State.setLight_presenters (p : Pos) (x : Light) : (s.setLight p x).presenters = s.presenters := rfl
@[simp] theorem State.setLight_readsDone (p : Pos) (x : Light) : (s.setLight p x).readsDone = s.readsDone := rfl
@[simp] theorem State.setLight_firing (p : Pos) (x : Light) : (s.setLight p x).firing = s.firing := rfl
@[simp] theorem State.setLight_cuesDone (p : Pos) (x : Light) : (s.setLight p x).cuesDone = s.cuesDone := rfl
@[simp] theorem State.setLight_routes (p : Pos) (x : Light) : (s.setLight p x).routes = s.routes := rfl
@[simp] theorem State.setLight_isGlobal (p : Pos) (x : Light) : (s.setLight p x).isGlobal = s.isGlobal := rfl
@[simp] theorem State.setLight_defaultRoute (p : Pos) (x : Light) : (s.setLight p x).defaultRoute = s.defaultRoute := rfl
@[simp] theorem State.setLight_channels (p : Pos) (x : Light) : (s.setLight p x).channels = s.channels := rfl
@[simp] theorem State.setLight_lights (p : Pos) (x : Light) : (s.setLight p x).lights = s.lights.set p x := rfl
@[simp] theorem State.setLight_rotation (p : Pos) (x : Light) : (s.setLight p x).rotation = s.rotation := rfl
@[simp] theorem State.setLight_buffer (p : Pos) (x : Light) : (s.setLight p x).buffer = s.buffer := rfl
@[simp] theorem State.setLight_flags (p : Pos) (x : Light) : (s.setLight p x).flags = s.flags := rfl
@[simp] theorem State.setLight_mask (p : Pos) (x : Light) : (s.setLight p x).mask = s.mask := rfl
@[simp] theorem State.setLight_debounce (p : Pos) (x : Light) : (s.setLight p x).debounce = s.debounce := rfl
@[simp] theorem State.setLight_frameRate (p : Pos) (x : Light) : (s.setLight p x).frameRate = s.frameRate := rfl
@[simp] theorem State.setLight_deviceTx (p : Pos) (x : Light) : (s.setLight p x).deviceTx = s.deviceTx := rfl
@[simp] theorem State.setLight_prompterTx (p : Pos) (x : Light) : (s.setLight p x).prompterTx = s.prompterTx := rfl
@[simp] theorem State.setLight_displayTx (p : Pos) (x : Light) : (s.setLight p x).displayTx = s.displayTx := rfl
@[simp] theorem State.setLight_deviceRx (p : Pos) (x : Light) : (s.setLight p x).deviceRx = s.deviceRx := rfl
@[simp] theorem State.setLight_prompterRx (p : Pos) (x : Light) : (s.setLight p x).prompterRx = s.prompterRx := rfl
@[simp] theorem State.setLight_held (p : Pos) (x : Light) : (s.setLight p x).held = s.held := rfl
@[simp] theorem State.setLight_due (p : Pos) (x : Light) : (s.setLight p x).due = s.due := rfl
@[simp] theorem State.setLight_cut (p : Pos) (x : Light) : (s.setLight p x).cut = s.cut := rfl
@[simp] theorem State.setLight_counted (p : Pos) (x : Light) : (s.setLight p x).counted = s.counted := rfl
@[simp] theorem State.setLight_looks (p : Pos) (x : Light) : (s.setLight p x).looks = s.looks := rfl
@[simp] theorem State.setLight_sdoStatus (p : Pos) (x : Light) : (s.setLight p x).sdoStatus = s.sdoStatus := rfl
@[simp] theorem State.setLight_sdo (p : Pos) (x : Light) : (s.setLight p x).sdo = s.sdo := rfl
@[simp] theorem State.setLight_pending (p : Pos) (x : Light) : (s.setLight p x).pending = s.pending := rfl
@[simp] theorem State.setLight_slot (p : Pos) (x : Light) (j : Slot) : (s.setLight p x).slot j = s.slot j := rfl
@[simp] theorem State.setLight_order (p : Pos) (x : Light) (u : Track) : (s.setLight p x).order u = s.order u := rfl
@[simp] theorem State.setLight_group (p : Pos) (x : Light) (h : GroupNo) : (s.setLight p x).group h = s.group h := rfl
@[simp] theorem State.setLight_armedQueue (p : Pos) (x : Light) (u : Track) : (s.setLight p x).armedQueue u = s.armedQueue u := rfl
@[simp] theorem State.setLight_track (p : Pos) (x : Light) (u : Track) : (s.setLight p x).track u = s.track u := rfl
@[simp] theorem State.setLight_input (p : Pos) (x : Light) (j : PanelInput) : (s.setLight p x).input j = s.input j := rfl
@[simp] theorem State.setLight_statusOf (p : Pos) (x : Light) (u : Track) : (s.setLight p x).statusOf u = s.statusOf u := rfl
@[simp] theorem State.setLight_presenter (p : Pos) (x : Light) (q : Pos) : (s.setLight p x).presenter q = s.presenter q := rfl
@[simp] theorem State.setLight_look (p : Pos) (x : Light) (u : Track) : (s.setLight p x).look u = s.look u := rfl
@[simp] theorem State.setLight_route (p : Pos) (x : Light) (m : RouteNo) : (s.setLight p x).route m = s.route m := rfl
@[simp] theorem State.setLight_channel (p : Pos) (x : Light) (d : Chan) : (s.setLight p x).channel d = s.channel d := rfl
@[simp] theorem State.setLight_light_self (p : Pos) (x : Light) : (s.setLight p x).light p = x := by simp [State.light]
theorem State.setLight_light_ne (p : Pos) (x : Light) {q : Pos} (hne : q ≠ p) : (s.setLight p x).light q = s.light q :=
  Bank.get_set_ne _ _ hne
theorem State.setLight_light (p : Pos) (x : Light) (q : Pos) : (s.setLight p x).light q = if q = p then x else s.light q :=
  Bank.get_set _ _ _ _
@[simp] theorem State.setLight_tx (p : Pos) (x : Light) (k : Link) : (s.setLight p x).tx k = s.tx k := by cases k <;> rfl
@[simp] theorem State.setLight_rx (p : Pos) (x : Light) (k : RxLink) : (s.setLight p x).rx k = s.rx k := by cases k <;> rfl

/-! ### setFiring -/

@[simp] theorem State.setFiring_slots (l : List Firing) : (s.setFiring l).slots = s.slots := rfl
@[simp] theorem State.setFiring_orders (l : List Firing) : (s.setFiring l).orders = s.orders := rfl
@[simp] theorem State.setFiring_groups (l : List Firing) : (s.setFiring l).groups = s.groups := rfl
@[simp] theorem State.setFiring_armed (l : List Firing) : (s.setFiring l).armed = s.armed := rfl
@[simp] theorem State.setFiring_tracks (l : List Firing) : (s.setFiring l).tracks = s.tracks := rfl
@[simp] theorem State.setFiring_panel (l : List Firing) : (s.setFiring l).panel = s.panel := rfl
@[simp] theorem State.setFiring_sfc (l : List Firing) : (s.setFiring l).sfc = s.sfc := rfl
@[simp] theorem State.setFiring_reference (l : List Firing) : (s.setFiring l).reference = s.reference := rfl
@[simp] theorem State.setFiring_qualifying (l : List Firing) : (s.setFiring l).qualifying = s.qualifying := rfl
@[simp] theorem State.setFiring_sinceFrame (l : List Firing) : (s.setFiring l).sinceFrame = s.sinceFrame := rfl
@[simp] theorem State.setFiring_sinceTimer (l : List Firing) : (s.setFiring l).sinceTimer = s.sinceTimer := rfl
@[simp] theorem State.setFiring_sincePulse (l : List Firing) : (s.setFiring l).sincePulse = s.sincePulse := rfl
@[simp] theorem State.setFiring_lastTick (l : List Firing) : (s.setFiring l).lastTick = s.lastTick := rfl
@[simp] theorem State.setFiring_status (l : List Firing) : (s.setFiring l).status = s.status := rfl
@[simp] theorem State.setFiring_presenters (l : List Firing) : (s.setFiring l).presenters = s.presenters := rfl
@[simp] theorem State.setFiring_readsDone (l : List Firing) : (s.setFiring l).readsDone = s.readsDone := rfl
@[simp] theorem State.setFiring_firing (l : List Firing) : (s.setFiring l).firing = l := rfl
@[simp] theorem State.setFiring_cuesDone (l : List Firing) : (s.setFiring l).cuesDone = s.cuesDone := rfl
@[simp] theorem State.setFiring_routes (l : List Firing) : (s.setFiring l).routes = s.routes := rfl
@[simp] theorem State.setFiring_isGlobal (l : List Firing) : (s.setFiring l).isGlobal = s.isGlobal := rfl
@[simp] theorem State.setFiring_defaultRoute (l : List Firing) : (s.setFiring l).defaultRoute = s.defaultRoute := rfl
@[simp] theorem State.setFiring_channels (l : List Firing) : (s.setFiring l).channels = s.channels := rfl
@[simp] theorem State.setFiring_lights (l : List Firing) : (s.setFiring l).lights = s.lights := rfl
@[simp] theorem State.setFiring_rotation (l : List Firing) : (s.setFiring l).rotation = s.rotation := rfl
@[simp] theorem State.setFiring_buffer (l : List Firing) : (s.setFiring l).buffer = s.buffer := rfl
@[simp] theorem State.setFiring_flags (l : List Firing) : (s.setFiring l).flags = s.flags := rfl
@[simp] theorem State.setFiring_mask (l : List Firing) : (s.setFiring l).mask = s.mask := rfl
@[simp] theorem State.setFiring_debounce (l : List Firing) : (s.setFiring l).debounce = s.debounce := rfl
@[simp] theorem State.setFiring_frameRate (l : List Firing) : (s.setFiring l).frameRate = s.frameRate := rfl
@[simp] theorem State.setFiring_deviceTx (l : List Firing) : (s.setFiring l).deviceTx = s.deviceTx := rfl
@[simp] theorem State.setFiring_prompterTx (l : List Firing) : (s.setFiring l).prompterTx = s.prompterTx := rfl
@[simp] theorem State.setFiring_displayTx (l : List Firing) : (s.setFiring l).displayTx = s.displayTx := rfl
@[simp] theorem State.setFiring_deviceRx (l : List Firing) : (s.setFiring l).deviceRx = s.deviceRx := rfl
@[simp] theorem State.setFiring_prompterRx (l : List Firing) : (s.setFiring l).prompterRx = s.prompterRx := rfl
@[simp] theorem State.setFiring_held (l : List Firing) : (s.setFiring l).held = s.held := rfl
@[simp] theorem State.setFiring_due (l : List Firing) : (s.setFiring l).due = s.due := rfl
@[simp] theorem State.setFiring_cut (l : List Firing) : (s.setFiring l).cut = s.cut := rfl
@[simp] theorem State.setFiring_counted (l : List Firing) : (s.setFiring l).counted = s.counted := rfl
@[simp] theorem State.setFiring_looks (l : List Firing) : (s.setFiring l).looks = s.looks := rfl
@[simp] theorem State.setFiring_sdoStatus (l : List Firing) : (s.setFiring l).sdoStatus = s.sdoStatus := rfl
@[simp] theorem State.setFiring_sdo (l : List Firing) : (s.setFiring l).sdo = s.sdo := rfl
@[simp] theorem State.setFiring_pending (l : List Firing) : (s.setFiring l).pending = s.pending := rfl
@[simp] theorem State.setFiring_slot (l : List Firing) (j : Slot) : (s.setFiring l).slot j = s.slot j := rfl
@[simp] theorem State.setFiring_order (l : List Firing) (u : Track) : (s.setFiring l).order u = s.order u := rfl
@[simp] theorem State.setFiring_group (l : List Firing) (h : GroupNo) : (s.setFiring l).group h = s.group h := rfl
@[simp] theorem State.setFiring_armedQueue (l : List Firing) (u : Track) : (s.setFiring l).armedQueue u = s.armedQueue u := rfl
@[simp] theorem State.setFiring_track (l : List Firing) (u : Track) : (s.setFiring l).track u = s.track u := rfl
@[simp] theorem State.setFiring_input (l : List Firing) (j : PanelInput) : (s.setFiring l).input j = s.input j := rfl
@[simp] theorem State.setFiring_statusOf (l : List Firing) (u : Track) : (s.setFiring l).statusOf u = s.statusOf u := rfl
@[simp] theorem State.setFiring_presenter (l : List Firing) (q : Pos) : (s.setFiring l).presenter q = s.presenter q := rfl
@[simp] theorem State.setFiring_look (l : List Firing) (u : Track) : (s.setFiring l).look u = s.look u := rfl
@[simp] theorem State.setFiring_route (l : List Firing) (m : RouteNo) : (s.setFiring l).route m = s.route m := rfl
@[simp] theorem State.setFiring_channel (l : List Firing) (d : Chan) : (s.setFiring l).channel d = s.channel d := rfl
@[simp] theorem State.setFiring_light (l : List Firing) (q : Pos) : (s.setFiring l).light q = s.light q := rfl
@[simp] theorem State.setFiring_tx (l : List Firing) (k : Link) : (s.setFiring l).tx k = s.tx k := by cases k <;> rfl
@[simp] theorem State.setFiring_rx (l : List Firing) (k : RxLink) : (s.setFiring l).rx k = s.rx k := by cases k <;> rfl

/-! ### setCuesDone -/

@[simp] theorem State.setCuesDone_slots (l : List CueDone) : (s.setCuesDone l).slots = s.slots := rfl
@[simp] theorem State.setCuesDone_orders (l : List CueDone) : (s.setCuesDone l).orders = s.orders := rfl
@[simp] theorem State.setCuesDone_groups (l : List CueDone) : (s.setCuesDone l).groups = s.groups := rfl
@[simp] theorem State.setCuesDone_armed (l : List CueDone) : (s.setCuesDone l).armed = s.armed := rfl
@[simp] theorem State.setCuesDone_tracks (l : List CueDone) : (s.setCuesDone l).tracks = s.tracks := rfl
@[simp] theorem State.setCuesDone_panel (l : List CueDone) : (s.setCuesDone l).panel = s.panel := rfl
@[simp] theorem State.setCuesDone_sfc (l : List CueDone) : (s.setCuesDone l).sfc = s.sfc := rfl
@[simp] theorem State.setCuesDone_reference (l : List CueDone) : (s.setCuesDone l).reference = s.reference := rfl
@[simp] theorem State.setCuesDone_qualifying (l : List CueDone) : (s.setCuesDone l).qualifying = s.qualifying := rfl
@[simp] theorem State.setCuesDone_sinceFrame (l : List CueDone) : (s.setCuesDone l).sinceFrame = s.sinceFrame := rfl
@[simp] theorem State.setCuesDone_sinceTimer (l : List CueDone) : (s.setCuesDone l).sinceTimer = s.sinceTimer := rfl
@[simp] theorem State.setCuesDone_sincePulse (l : List CueDone) : (s.setCuesDone l).sincePulse = s.sincePulse := rfl
@[simp] theorem State.setCuesDone_lastTick (l : List CueDone) : (s.setCuesDone l).lastTick = s.lastTick := rfl
@[simp] theorem State.setCuesDone_status (l : List CueDone) : (s.setCuesDone l).status = s.status := rfl
@[simp] theorem State.setCuesDone_presenters (l : List CueDone) : (s.setCuesDone l).presenters = s.presenters := rfl
@[simp] theorem State.setCuesDone_readsDone (l : List CueDone) : (s.setCuesDone l).readsDone = s.readsDone := rfl
@[simp] theorem State.setCuesDone_firing (l : List CueDone) : (s.setCuesDone l).firing = s.firing := rfl
@[simp] theorem State.setCuesDone_cuesDone (l : List CueDone) : (s.setCuesDone l).cuesDone = l := rfl
@[simp] theorem State.setCuesDone_routes (l : List CueDone) : (s.setCuesDone l).routes = s.routes := rfl
@[simp] theorem State.setCuesDone_isGlobal (l : List CueDone) : (s.setCuesDone l).isGlobal = s.isGlobal := rfl
@[simp] theorem State.setCuesDone_defaultRoute (l : List CueDone) : (s.setCuesDone l).defaultRoute = s.defaultRoute := rfl
@[simp] theorem State.setCuesDone_channels (l : List CueDone) : (s.setCuesDone l).channels = s.channels := rfl
@[simp] theorem State.setCuesDone_lights (l : List CueDone) : (s.setCuesDone l).lights = s.lights := rfl
@[simp] theorem State.setCuesDone_rotation (l : List CueDone) : (s.setCuesDone l).rotation = s.rotation := rfl
@[simp] theorem State.setCuesDone_buffer (l : List CueDone) : (s.setCuesDone l).buffer = s.buffer := rfl
@[simp] theorem State.setCuesDone_flags (l : List CueDone) : (s.setCuesDone l).flags = s.flags := rfl
@[simp] theorem State.setCuesDone_mask (l : List CueDone) : (s.setCuesDone l).mask = s.mask := rfl
@[simp] theorem State.setCuesDone_debounce (l : List CueDone) : (s.setCuesDone l).debounce = s.debounce := rfl
@[simp] theorem State.setCuesDone_frameRate (l : List CueDone) : (s.setCuesDone l).frameRate = s.frameRate := rfl
@[simp] theorem State.setCuesDone_deviceTx (l : List CueDone) : (s.setCuesDone l).deviceTx = s.deviceTx := rfl
@[simp] theorem State.setCuesDone_prompterTx (l : List CueDone) : (s.setCuesDone l).prompterTx = s.prompterTx := rfl
@[simp] theorem State.setCuesDone_displayTx (l : List CueDone) : (s.setCuesDone l).displayTx = s.displayTx := rfl
@[simp] theorem State.setCuesDone_deviceRx (l : List CueDone) : (s.setCuesDone l).deviceRx = s.deviceRx := rfl
@[simp] theorem State.setCuesDone_prompterRx (l : List CueDone) : (s.setCuesDone l).prompterRx = s.prompterRx := rfl
@[simp] theorem State.setCuesDone_held (l : List CueDone) : (s.setCuesDone l).held = s.held := rfl
@[simp] theorem State.setCuesDone_due (l : List CueDone) : (s.setCuesDone l).due = s.due := rfl
@[simp] theorem State.setCuesDone_cut (l : List CueDone) : (s.setCuesDone l).cut = s.cut := rfl
@[simp] theorem State.setCuesDone_counted (l : List CueDone) : (s.setCuesDone l).counted = s.counted := rfl
@[simp] theorem State.setCuesDone_looks (l : List CueDone) : (s.setCuesDone l).looks = s.looks := rfl
@[simp] theorem State.setCuesDone_sdoStatus (l : List CueDone) : (s.setCuesDone l).sdoStatus = s.sdoStatus := rfl
@[simp] theorem State.setCuesDone_sdo (l : List CueDone) : (s.setCuesDone l).sdo = s.sdo := rfl
@[simp] theorem State.setCuesDone_pending (l : List CueDone) : (s.setCuesDone l).pending = s.pending := rfl
@[simp] theorem State.setCuesDone_slot (l : List CueDone) (j : Slot) : (s.setCuesDone l).slot j = s.slot j := rfl
@[simp] theorem State.setCuesDone_order (l : List CueDone) (u : Track) : (s.setCuesDone l).order u = s.order u := rfl
@[simp] theorem State.setCuesDone_group (l : List CueDone) (h : GroupNo) : (s.setCuesDone l).group h = s.group h := rfl
@[simp] theorem State.setCuesDone_armedQueue (l : List CueDone) (u : Track) : (s.setCuesDone l).armedQueue u = s.armedQueue u := rfl
@[simp] theorem State.setCuesDone_track (l : List CueDone) (u : Track) : (s.setCuesDone l).track u = s.track u := rfl
@[simp] theorem State.setCuesDone_input (l : List CueDone) (j : PanelInput) : (s.setCuesDone l).input j = s.input j := rfl
@[simp] theorem State.setCuesDone_statusOf (l : List CueDone) (u : Track) : (s.setCuesDone l).statusOf u = s.statusOf u := rfl
@[simp] theorem State.setCuesDone_presenter (l : List CueDone) (q : Pos) : (s.setCuesDone l).presenter q = s.presenter q := rfl
@[simp] theorem State.setCuesDone_look (l : List CueDone) (u : Track) : (s.setCuesDone l).look u = s.look u := rfl
@[simp] theorem State.setCuesDone_route (l : List CueDone) (m : RouteNo) : (s.setCuesDone l).route m = s.route m := rfl
@[simp] theorem State.setCuesDone_channel (l : List CueDone) (d : Chan) : (s.setCuesDone l).channel d = s.channel d := rfl
@[simp] theorem State.setCuesDone_light (l : List CueDone) (q : Pos) : (s.setCuesDone l).light q = s.light q := rfl
@[simp] theorem State.setCuesDone_tx (l : List CueDone) (k : Link) : (s.setCuesDone l).tx k = s.tx k := by cases k <;> rfl
@[simp] theorem State.setCuesDone_rx (l : List CueDone) (k : RxLink) : (s.setCuesDone l).rx k = s.rx k := by cases k <;> rfl

/-! ### setReadsDone -/

@[simp] theorem State.setReadsDone_slots (l : List ReadDone) : (s.setReadsDone l).slots = s.slots := rfl
@[simp] theorem State.setReadsDone_orders (l : List ReadDone) : (s.setReadsDone l).orders = s.orders := rfl
@[simp] theorem State.setReadsDone_groups (l : List ReadDone) : (s.setReadsDone l).groups = s.groups := rfl
@[simp] theorem State.setReadsDone_armed (l : List ReadDone) : (s.setReadsDone l).armed = s.armed := rfl
@[simp] theorem State.setReadsDone_tracks (l : List ReadDone) : (s.setReadsDone l).tracks = s.tracks := rfl
@[simp] theorem State.setReadsDone_panel (l : List ReadDone) : (s.setReadsDone l).panel = s.panel := rfl
@[simp] theorem State.setReadsDone_sfc (l : List ReadDone) : (s.setReadsDone l).sfc = s.sfc := rfl
@[simp] theorem State.setReadsDone_reference (l : List ReadDone) : (s.setReadsDone l).reference = s.reference := rfl
@[simp] theorem State.setReadsDone_qualifying (l : List ReadDone) : (s.setReadsDone l).qualifying = s.qualifying := rfl
@[simp] theorem State.setReadsDone_sinceFrame (l : List ReadDone) : (s.setReadsDone l).sinceFrame = s.sinceFrame := rfl
@[simp] theorem State.setReadsDone_sinceTimer (l : List ReadDone) : (s.setReadsDone l).sinceTimer = s.sinceTimer := rfl
@[simp] theorem State.setReadsDone_sincePulse (l : List ReadDone) : (s.setReadsDone l).sincePulse = s.sincePulse := rfl
@[simp] theorem State.setReadsDone_lastTick (l : List ReadDone) : (s.setReadsDone l).lastTick = s.lastTick := rfl
@[simp] theorem State.setReadsDone_status (l : List ReadDone) : (s.setReadsDone l).status = s.status := rfl
@[simp] theorem State.setReadsDone_presenters (l : List ReadDone) : (s.setReadsDone l).presenters = s.presenters := rfl
@[simp] theorem State.setReadsDone_readsDone (l : List ReadDone) : (s.setReadsDone l).readsDone = l := rfl
@[simp] theorem State.setReadsDone_firing (l : List ReadDone) : (s.setReadsDone l).firing = s.firing := rfl
@[simp] theorem State.setReadsDone_cuesDone (l : List ReadDone) : (s.setReadsDone l).cuesDone = s.cuesDone := rfl
@[simp] theorem State.setReadsDone_routes (l : List ReadDone) : (s.setReadsDone l).routes = s.routes := rfl
@[simp] theorem State.setReadsDone_isGlobal (l : List ReadDone) : (s.setReadsDone l).isGlobal = s.isGlobal := rfl
@[simp] theorem State.setReadsDone_defaultRoute (l : List ReadDone) : (s.setReadsDone l).defaultRoute = s.defaultRoute := rfl
@[simp] theorem State.setReadsDone_channels (l : List ReadDone) : (s.setReadsDone l).channels = s.channels := rfl
@[simp] theorem State.setReadsDone_lights (l : List ReadDone) : (s.setReadsDone l).lights = s.lights := rfl
@[simp] theorem State.setReadsDone_rotation (l : List ReadDone) : (s.setReadsDone l).rotation = s.rotation := rfl
@[simp] theorem State.setReadsDone_buffer (l : List ReadDone) : (s.setReadsDone l).buffer = s.buffer := rfl
@[simp] theorem State.setReadsDone_flags (l : List ReadDone) : (s.setReadsDone l).flags = s.flags := rfl
@[simp] theorem State.setReadsDone_mask (l : List ReadDone) : (s.setReadsDone l).mask = s.mask := rfl
@[simp] theorem State.setReadsDone_debounce (l : List ReadDone) : (s.setReadsDone l).debounce = s.debounce := rfl
@[simp] theorem State.setReadsDone_frameRate (l : List ReadDone) : (s.setReadsDone l).frameRate = s.frameRate := rfl
@[simp] theorem State.setReadsDone_deviceTx (l : List ReadDone) : (s.setReadsDone l).deviceTx = s.deviceTx := rfl
@[simp] theorem State.setReadsDone_prompterTx (l : List ReadDone) : (s.setReadsDone l).prompterTx = s.prompterTx := rfl
@[simp] theorem State.setReadsDone_displayTx (l : List ReadDone) : (s.setReadsDone l).displayTx = s.displayTx := rfl
@[simp] theorem State.setReadsDone_deviceRx (l : List ReadDone) : (s.setReadsDone l).deviceRx = s.deviceRx := rfl
@[simp] theorem State.setReadsDone_prompterRx (l : List ReadDone) : (s.setReadsDone l).prompterRx = s.prompterRx := rfl
@[simp] theorem State.setReadsDone_held (l : List ReadDone) : (s.setReadsDone l).held = s.held := rfl
@[simp] theorem State.setReadsDone_due (l : List ReadDone) : (s.setReadsDone l).due = s.due := rfl
@[simp] theorem State.setReadsDone_cut (l : List ReadDone) : (s.setReadsDone l).cut = s.cut := rfl
@[simp] theorem State.setReadsDone_counted (l : List ReadDone) : (s.setReadsDone l).counted = s.counted := rfl
@[simp] theorem State.setReadsDone_looks (l : List ReadDone) : (s.setReadsDone l).looks = s.looks := rfl
@[simp] theorem State.setReadsDone_sdoStatus (l : List ReadDone) : (s.setReadsDone l).sdoStatus = s.sdoStatus := rfl
@[simp] theorem State.setReadsDone_sdo (l : List ReadDone) : (s.setReadsDone l).sdo = s.sdo := rfl
@[simp] theorem State.setReadsDone_pending (l : List ReadDone) : (s.setReadsDone l).pending = s.pending := rfl
@[simp] theorem State.setReadsDone_slot (l : List ReadDone) (j : Slot) : (s.setReadsDone l).slot j = s.slot j := rfl
@[simp] theorem State.setReadsDone_order (l : List ReadDone) (u : Track) : (s.setReadsDone l).order u = s.order u := rfl
@[simp] theorem State.setReadsDone_group (l : List ReadDone) (h : GroupNo) : (s.setReadsDone l).group h = s.group h := rfl
@[simp] theorem State.setReadsDone_armedQueue (l : List ReadDone) (u : Track) : (s.setReadsDone l).armedQueue u = s.armedQueue u := rfl
@[simp] theorem State.setReadsDone_track (l : List ReadDone) (u : Track) : (s.setReadsDone l).track u = s.track u := rfl
@[simp] theorem State.setReadsDone_input (l : List ReadDone) (j : PanelInput) : (s.setReadsDone l).input j = s.input j := rfl
@[simp] theorem State.setReadsDone_statusOf (l : List ReadDone) (u : Track) : (s.setReadsDone l).statusOf u = s.statusOf u := rfl
@[simp] theorem State.setReadsDone_presenter (l : List ReadDone) (q : Pos) : (s.setReadsDone l).presenter q = s.presenter q := rfl
@[simp] theorem State.setReadsDone_look (l : List ReadDone) (u : Track) : (s.setReadsDone l).look u = s.look u := rfl
@[simp] theorem State.setReadsDone_route (l : List ReadDone) (m : RouteNo) : (s.setReadsDone l).route m = s.route m := rfl
@[simp] theorem State.setReadsDone_channel (l : List ReadDone) (d : Chan) : (s.setReadsDone l).channel d = s.channel d := rfl
@[simp] theorem State.setReadsDone_light (l : List ReadDone) (q : Pos) : (s.setReadsDone l).light q = s.light q := rfl
@[simp] theorem State.setReadsDone_tx (l : List ReadDone) (k : Link) : (s.setReadsDone l).tx k = s.tx k := by cases k <;> rfl
@[simp] theorem State.setReadsDone_rx (l : List ReadDone) (k : RxLink) : (s.setReadsDone l).rx k = s.rx k := by cases k <;> rfl

/-! ### setFlags -/

@[simp] theorem State.setFlags_slots (f : EventSet) : (s.setFlags f).slots = s.slots := rfl
@[simp] theorem State.setFlags_orders (f : EventSet) : (s.setFlags f).orders = s.orders := rfl
@[simp] theorem State.setFlags_groups (f : EventSet) : (s.setFlags f).groups = s.groups := rfl
@[simp] theorem State.setFlags_armed (f : EventSet) : (s.setFlags f).armed = s.armed := rfl
@[simp] theorem State.setFlags_tracks (f : EventSet) : (s.setFlags f).tracks = s.tracks := rfl
@[simp] theorem State.setFlags_panel (f : EventSet) : (s.setFlags f).panel = s.panel := rfl
@[simp] theorem State.setFlags_sfc (f : EventSet) : (s.setFlags f).sfc = s.sfc := rfl
@[simp] theorem State.setFlags_reference (f : EventSet) : (s.setFlags f).reference = s.reference := rfl
@[simp] theorem State.setFlags_qualifying (f : EventSet) : (s.setFlags f).qualifying = s.qualifying := rfl
@[simp] theorem State.setFlags_sinceFrame (f : EventSet) : (s.setFlags f).sinceFrame = s.sinceFrame := rfl
@[simp] theorem State.setFlags_sinceTimer (f : EventSet) : (s.setFlags f).sinceTimer = s.sinceTimer := rfl
@[simp] theorem State.setFlags_sincePulse (f : EventSet) : (s.setFlags f).sincePulse = s.sincePulse := rfl
@[simp] theorem State.setFlags_lastTick (f : EventSet) : (s.setFlags f).lastTick = s.lastTick := rfl
@[simp] theorem State.setFlags_status (f : EventSet) : (s.setFlags f).status = s.status := rfl
@[simp] theorem State.setFlags_presenters (f : EventSet) : (s.setFlags f).presenters = s.presenters := rfl
@[simp] theorem State.setFlags_readsDone (f : EventSet) : (s.setFlags f).readsDone = s.readsDone := rfl
@[simp] theorem State.setFlags_firing (f : EventSet) : (s.setFlags f).firing = s.firing := rfl
@[simp] theorem State.setFlags_cuesDone (f : EventSet) : (s.setFlags f).cuesDone = s.cuesDone := rfl
@[simp] theorem State.setFlags_routes (f : EventSet) : (s.setFlags f).routes = s.routes := rfl
@[simp] theorem State.setFlags_isGlobal (f : EventSet) : (s.setFlags f).isGlobal = s.isGlobal := rfl
@[simp] theorem State.setFlags_defaultRoute (f : EventSet) : (s.setFlags f).defaultRoute = s.defaultRoute := rfl
@[simp] theorem State.setFlags_channels (f : EventSet) : (s.setFlags f).channels = s.channels := rfl
@[simp] theorem State.setFlags_lights (f : EventSet) : (s.setFlags f).lights = s.lights := rfl
@[simp] theorem State.setFlags_rotation (f : EventSet) : (s.setFlags f).rotation = s.rotation := rfl
@[simp] theorem State.setFlags_buffer (f : EventSet) : (s.setFlags f).buffer = s.buffer := rfl
@[simp] theorem State.setFlags_flags (f : EventSet) : (s.setFlags f).flags = f := rfl
@[simp] theorem State.setFlags_mask (f : EventSet) : (s.setFlags f).mask = s.mask := rfl
@[simp] theorem State.setFlags_debounce (f : EventSet) : (s.setFlags f).debounce = s.debounce := rfl
@[simp] theorem State.setFlags_frameRate (f : EventSet) : (s.setFlags f).frameRate = s.frameRate := rfl
@[simp] theorem State.setFlags_deviceTx (f : EventSet) : (s.setFlags f).deviceTx = s.deviceTx := rfl
@[simp] theorem State.setFlags_prompterTx (f : EventSet) : (s.setFlags f).prompterTx = s.prompterTx := rfl
@[simp] theorem State.setFlags_displayTx (f : EventSet) : (s.setFlags f).displayTx = s.displayTx := rfl
@[simp] theorem State.setFlags_deviceRx (f : EventSet) : (s.setFlags f).deviceRx = s.deviceRx := rfl
@[simp] theorem State.setFlags_prompterRx (f : EventSet) : (s.setFlags f).prompterRx = s.prompterRx := rfl
@[simp] theorem State.setFlags_held (f : EventSet) : (s.setFlags f).held = s.held := rfl
@[simp] theorem State.setFlags_due (f : EventSet) : (s.setFlags f).due = s.due := rfl
@[simp] theorem State.setFlags_cut (f : EventSet) : (s.setFlags f).cut = s.cut := rfl
@[simp] theorem State.setFlags_counted (f : EventSet) : (s.setFlags f).counted = s.counted := rfl
@[simp] theorem State.setFlags_looks (f : EventSet) : (s.setFlags f).looks = s.looks := rfl
@[simp] theorem State.setFlags_sdoStatus (f : EventSet) : (s.setFlags f).sdoStatus = s.sdoStatus := rfl
@[simp] theorem State.setFlags_sdo (f : EventSet) : (s.setFlags f).sdo = s.sdo := rfl
@[simp] theorem State.setFlags_pending (f : EventSet) : (s.setFlags f).pending = s.pending := rfl
@[simp] theorem State.setFlags_slot (f : EventSet) (j : Slot) : (s.setFlags f).slot j = s.slot j := rfl
@[simp] theorem State.setFlags_order (f : EventSet) (u : Track) : (s.setFlags f).order u = s.order u := rfl
@[simp] theorem State.setFlags_group (f : EventSet) (h : GroupNo) : (s.setFlags f).group h = s.group h := rfl
@[simp] theorem State.setFlags_armedQueue (f : EventSet) (u : Track) : (s.setFlags f).armedQueue u = s.armedQueue u := rfl
@[simp] theorem State.setFlags_track (f : EventSet) (u : Track) : (s.setFlags f).track u = s.track u := rfl
@[simp] theorem State.setFlags_input (f : EventSet) (j : PanelInput) : (s.setFlags f).input j = s.input j := rfl
@[simp] theorem State.setFlags_statusOf (f : EventSet) (u : Track) : (s.setFlags f).statusOf u = s.statusOf u := rfl
@[simp] theorem State.setFlags_presenter (f : EventSet) (q : Pos) : (s.setFlags f).presenter q = s.presenter q := rfl
@[simp] theorem State.setFlags_look (f : EventSet) (u : Track) : (s.setFlags f).look u = s.look u := rfl
@[simp] theorem State.setFlags_route (f : EventSet) (m : RouteNo) : (s.setFlags f).route m = s.route m := rfl
@[simp] theorem State.setFlags_channel (f : EventSet) (d : Chan) : (s.setFlags f).channel d = s.channel d := rfl
@[simp] theorem State.setFlags_light (f : EventSet) (q : Pos) : (s.setFlags f).light q = s.light q := rfl
@[simp] theorem State.setFlags_tx (f : EventSet) (k : Link) : (s.setFlags f).tx k = s.tx k := by cases k <;> rfl
@[simp] theorem State.setFlags_rx (f : EventSet) (k : RxLink) : (s.setFlags f).rx k = s.rx k := by cases k <;> rfl

/-! ### setDue -/

@[simp] theorem State.setDue_slots (l : List FrameWork) : (s.setDue l).slots = s.slots := rfl
@[simp] theorem State.setDue_orders (l : List FrameWork) : (s.setDue l).orders = s.orders := rfl
@[simp] theorem State.setDue_groups (l : List FrameWork) : (s.setDue l).groups = s.groups := rfl
@[simp] theorem State.setDue_armed (l : List FrameWork) : (s.setDue l).armed = s.armed := rfl
@[simp] theorem State.setDue_tracks (l : List FrameWork) : (s.setDue l).tracks = s.tracks := rfl
@[simp] theorem State.setDue_panel (l : List FrameWork) : (s.setDue l).panel = s.panel := rfl
@[simp] theorem State.setDue_sfc (l : List FrameWork) : (s.setDue l).sfc = s.sfc := rfl
@[simp] theorem State.setDue_reference (l : List FrameWork) : (s.setDue l).reference = s.reference := rfl
@[simp] theorem State.setDue_qualifying (l : List FrameWork) : (s.setDue l).qualifying = s.qualifying := rfl
@[simp] theorem State.setDue_sinceFrame (l : List FrameWork) : (s.setDue l).sinceFrame = s.sinceFrame := rfl
@[simp] theorem State.setDue_sinceTimer (l : List FrameWork) : (s.setDue l).sinceTimer = s.sinceTimer := rfl
@[simp] theorem State.setDue_sincePulse (l : List FrameWork) : (s.setDue l).sincePulse = s.sincePulse := rfl
@[simp] theorem State.setDue_lastTick (l : List FrameWork) : (s.setDue l).lastTick = s.lastTick := rfl
@[simp] theorem State.setDue_status (l : List FrameWork) : (s.setDue l).status = s.status := rfl
@[simp] theorem State.setDue_presenters (l : List FrameWork) : (s.setDue l).presenters = s.presenters := rfl
@[simp] theorem State.setDue_readsDone (l : List FrameWork) : (s.setDue l).readsDone = s.readsDone := rfl
@[simp] theorem State.setDue_firing (l : List FrameWork) : (s.setDue l).firing = s.firing := rfl
@[simp] theorem State.setDue_cuesDone (l : List FrameWork) : (s.setDue l).cuesDone = s.cuesDone := rfl
@[simp] theorem State.setDue_routes (l : List FrameWork) : (s.setDue l).routes = s.routes := rfl
@[simp] theorem State.setDue_isGlobal (l : List FrameWork) : (s.setDue l).isGlobal = s.isGlobal := rfl
@[simp] theorem State.setDue_defaultRoute (l : List FrameWork) : (s.setDue l).defaultRoute = s.defaultRoute := rfl
@[simp] theorem State.setDue_channels (l : List FrameWork) : (s.setDue l).channels = s.channels := rfl
@[simp] theorem State.setDue_lights (l : List FrameWork) : (s.setDue l).lights = s.lights := rfl
@[simp] theorem State.setDue_rotation (l : List FrameWork) : (s.setDue l).rotation = s.rotation := rfl
@[simp] theorem State.setDue_buffer (l : List FrameWork) : (s.setDue l).buffer = s.buffer := rfl
@[simp] theorem State.setDue_flags (l : List FrameWork) : (s.setDue l).flags = s.flags := rfl
@[simp] theorem State.setDue_mask (l : List FrameWork) : (s.setDue l).mask = s.mask := rfl
@[simp] theorem State.setDue_debounce (l : List FrameWork) : (s.setDue l).debounce = s.debounce := rfl
@[simp] theorem State.setDue_frameRate (l : List FrameWork) : (s.setDue l).frameRate = s.frameRate := rfl
@[simp] theorem State.setDue_deviceTx (l : List FrameWork) : (s.setDue l).deviceTx = s.deviceTx := rfl
@[simp] theorem State.setDue_prompterTx (l : List FrameWork) : (s.setDue l).prompterTx = s.prompterTx := rfl
@[simp] theorem State.setDue_displayTx (l : List FrameWork) : (s.setDue l).displayTx = s.displayTx := rfl
@[simp] theorem State.setDue_deviceRx (l : List FrameWork) : (s.setDue l).deviceRx = s.deviceRx := rfl
@[simp] theorem State.setDue_prompterRx (l : List FrameWork) : (s.setDue l).prompterRx = s.prompterRx := rfl
@[simp] theorem State.setDue_held (l : List FrameWork) : (s.setDue l).held = s.held := rfl
@[simp] theorem State.setDue_due (l : List FrameWork) : (s.setDue l).due = l := rfl
@[simp] theorem State.setDue_cut (l : List FrameWork) : (s.setDue l).cut = s.cut := rfl
@[simp] theorem State.setDue_counted (l : List FrameWork) : (s.setDue l).counted = s.counted := rfl
@[simp] theorem State.setDue_looks (l : List FrameWork) : (s.setDue l).looks = s.looks := rfl
@[simp] theorem State.setDue_sdoStatus (l : List FrameWork) : (s.setDue l).sdoStatus = s.sdoStatus := rfl
@[simp] theorem State.setDue_sdo (l : List FrameWork) : (s.setDue l).sdo = s.sdo := rfl
@[simp] theorem State.setDue_pending (l : List FrameWork) : (s.setDue l).pending = s.pending := rfl
@[simp] theorem State.setDue_slot (l : List FrameWork) (j : Slot) : (s.setDue l).slot j = s.slot j := rfl
@[simp] theorem State.setDue_order (l : List FrameWork) (u : Track) : (s.setDue l).order u = s.order u := rfl
@[simp] theorem State.setDue_group (l : List FrameWork) (h : GroupNo) : (s.setDue l).group h = s.group h := rfl
@[simp] theorem State.setDue_armedQueue (l : List FrameWork) (u : Track) : (s.setDue l).armedQueue u = s.armedQueue u := rfl
@[simp] theorem State.setDue_track (l : List FrameWork) (u : Track) : (s.setDue l).track u = s.track u := rfl
@[simp] theorem State.setDue_input (l : List FrameWork) (j : PanelInput) : (s.setDue l).input j = s.input j := rfl
@[simp] theorem State.setDue_statusOf (l : List FrameWork) (u : Track) : (s.setDue l).statusOf u = s.statusOf u := rfl
@[simp] theorem State.setDue_presenter (l : List FrameWork) (q : Pos) : (s.setDue l).presenter q = s.presenter q := rfl
@[simp] theorem State.setDue_look (l : List FrameWork) (u : Track) : (s.setDue l).look u = s.look u := rfl
@[simp] theorem State.setDue_route (l : List FrameWork) (m : RouteNo) : (s.setDue l).route m = s.route m := rfl
@[simp] theorem State.setDue_channel (l : List FrameWork) (d : Chan) : (s.setDue l).channel d = s.channel d := rfl
@[simp] theorem State.setDue_light (l : List FrameWork) (q : Pos) : (s.setDue l).light q = s.light q := rfl
@[simp] theorem State.setDue_tx (l : List FrameWork) (k : Link) : (s.setDue l).tx k = s.tx k := by cases k <;> rfl
@[simp] theorem State.setDue_rx (l : List FrameWork) (k : RxLink) : (s.setDue l).rx k = s.rx k := by cases k <;> rfl

/-! ### setCut -/

@[simp] theorem State.setCut_slots (p : PerTrack Bool) : (s.setCut p).slots = s.slots := rfl
@[simp] theorem State.setCut_orders (p : PerTrack Bool) : (s.setCut p).orders = s.orders := rfl
@[simp] theorem State.setCut_groups (p : PerTrack Bool) : (s.setCut p).groups = s.groups := rfl
@[simp] theorem State.setCut_armed (p : PerTrack Bool) : (s.setCut p).armed = s.armed := rfl
@[simp] theorem State.setCut_tracks (p : PerTrack Bool) : (s.setCut p).tracks = s.tracks := rfl
@[simp] theorem State.setCut_panel (p : PerTrack Bool) : (s.setCut p).panel = s.panel := rfl
@[simp] theorem State.setCut_sfc (p : PerTrack Bool) : (s.setCut p).sfc = s.sfc := rfl
@[simp] theorem State.setCut_reference (p : PerTrack Bool) : (s.setCut p).reference = s.reference := rfl
@[simp] theorem State.setCut_qualifying (p : PerTrack Bool) : (s.setCut p).qualifying = s.qualifying := rfl
@[simp] theorem State.setCut_sinceFrame (p : PerTrack Bool) : (s.setCut p).sinceFrame = s.sinceFrame := rfl
@[simp] theorem State.setCut_sinceTimer (p : PerTrack Bool) : (s.setCut p).sinceTimer = s.sinceTimer := rfl
@[simp] theorem State.setCut_sincePulse (p : PerTrack Bool) : (s.setCut p).sincePulse = s.sincePulse := rfl
@[simp] theorem State.setCut_lastTick (p : PerTrack Bool) : (s.setCut p).lastTick = s.lastTick := rfl
@[simp] theorem State.setCut_status (p : PerTrack Bool) : (s.setCut p).status = s.status := rfl
@[simp] theorem State.setCut_presenters (p : PerTrack Bool) : (s.setCut p).presenters = s.presenters := rfl
@[simp] theorem State.setCut_readsDone (p : PerTrack Bool) : (s.setCut p).readsDone = s.readsDone := rfl
@[simp] theorem State.setCut_firing (p : PerTrack Bool) : (s.setCut p).firing = s.firing := rfl
@[simp] theorem State.setCut_cuesDone (p : PerTrack Bool) : (s.setCut p).cuesDone = s.cuesDone := rfl
@[simp] theorem State.setCut_routes (p : PerTrack Bool) : (s.setCut p).routes = s.routes := rfl
@[simp] theorem State.setCut_isGlobal (p : PerTrack Bool) : (s.setCut p).isGlobal = s.isGlobal := rfl
@[simp] theorem State.setCut_defaultRoute (p : PerTrack Bool) : (s.setCut p).defaultRoute = s.defaultRoute := rfl
@[simp] theorem State.setCut_channels (p : PerTrack Bool) : (s.setCut p).channels = s.channels := rfl
@[simp] theorem State.setCut_lights (p : PerTrack Bool) : (s.setCut p).lights = s.lights := rfl
@[simp] theorem State.setCut_rotation (p : PerTrack Bool) : (s.setCut p).rotation = s.rotation := rfl
@[simp] theorem State.setCut_buffer (p : PerTrack Bool) : (s.setCut p).buffer = s.buffer := rfl
@[simp] theorem State.setCut_flags (p : PerTrack Bool) : (s.setCut p).flags = s.flags := rfl
@[simp] theorem State.setCut_mask (p : PerTrack Bool) : (s.setCut p).mask = s.mask := rfl
@[simp] theorem State.setCut_debounce (p : PerTrack Bool) : (s.setCut p).debounce = s.debounce := rfl
@[simp] theorem State.setCut_frameRate (p : PerTrack Bool) : (s.setCut p).frameRate = s.frameRate := rfl
@[simp] theorem State.setCut_deviceTx (p : PerTrack Bool) : (s.setCut p).deviceTx = s.deviceTx := rfl
@[simp] theorem State.setCut_prompterTx (p : PerTrack Bool) : (s.setCut p).prompterTx = s.prompterTx := rfl
@[simp] theorem State.setCut_displayTx (p : PerTrack Bool) : (s.setCut p).displayTx = s.displayTx := rfl
@[simp] theorem State.setCut_deviceRx (p : PerTrack Bool) : (s.setCut p).deviceRx = s.deviceRx := rfl
@[simp] theorem State.setCut_prompterRx (p : PerTrack Bool) : (s.setCut p).prompterRx = s.prompterRx := rfl
@[simp] theorem State.setCut_held (p : PerTrack Bool) : (s.setCut p).held = s.held := rfl
@[simp] theorem State.setCut_due (p : PerTrack Bool) : (s.setCut p).due = s.due := rfl
@[simp] theorem State.setCut_cut (p : PerTrack Bool) : (s.setCut p).cut = p := rfl
@[simp] theorem State.setCut_counted (p : PerTrack Bool) : (s.setCut p).counted = s.counted := rfl
@[simp] theorem State.setCut_looks (p : PerTrack Bool) : (s.setCut p).looks = s.looks := rfl
@[simp] theorem State.setCut_sdoStatus (p : PerTrack Bool) : (s.setCut p).sdoStatus = s.sdoStatus := rfl
@[simp] theorem State.setCut_sdo (p : PerTrack Bool) : (s.setCut p).sdo = s.sdo := rfl
@[simp] theorem State.setCut_pending (p : PerTrack Bool) : (s.setCut p).pending = s.pending := rfl
@[simp] theorem State.setCut_slot (p : PerTrack Bool) (j : Slot) : (s.setCut p).slot j = s.slot j := rfl
@[simp] theorem State.setCut_order (p : PerTrack Bool) (u : Track) : (s.setCut p).order u = s.order u := rfl
@[simp] theorem State.setCut_group (p : PerTrack Bool) (h : GroupNo) : (s.setCut p).group h = s.group h := rfl
@[simp] theorem State.setCut_armedQueue (p : PerTrack Bool) (u : Track) : (s.setCut p).armedQueue u = s.armedQueue u := rfl
@[simp] theorem State.setCut_track (p : PerTrack Bool) (u : Track) : (s.setCut p).track u = s.track u := rfl
@[simp] theorem State.setCut_input (p : PerTrack Bool) (j : PanelInput) : (s.setCut p).input j = s.input j := rfl
@[simp] theorem State.setCut_statusOf (p : PerTrack Bool) (u : Track) : (s.setCut p).statusOf u = s.statusOf u := rfl
@[simp] theorem State.setCut_presenter (p : PerTrack Bool) (q : Pos) : (s.setCut p).presenter q = s.presenter q := rfl
@[simp] theorem State.setCut_look (p : PerTrack Bool) (u : Track) : (s.setCut p).look u = s.look u := rfl
@[simp] theorem State.setCut_route (p : PerTrack Bool) (m : RouteNo) : (s.setCut p).route m = s.route m := rfl
@[simp] theorem State.setCut_channel (p : PerTrack Bool) (d : Chan) : (s.setCut p).channel d = s.channel d := rfl
@[simp] theorem State.setCut_light (p : PerTrack Bool) (q : Pos) : (s.setCut p).light q = s.light q := rfl
@[simp] theorem State.setCut_tx (p : PerTrack Bool) (k : Link) : (s.setCut p).tx k = s.tx k := by cases k <;> rfl
@[simp] theorem State.setCut_rx (p : PerTrack Bool) (k : RxLink) : (s.setCut p).rx k = s.rx k := by cases k <;> rfl

/-! ### setLooks -/

@[simp] theorem State.setLooks_slots (p : PerTrack Look) : (s.setLooks p).slots = s.slots := rfl
@[simp] theorem State.setLooks_orders (p : PerTrack Look) : (s.setLooks p).orders = s.orders := rfl
@[simp] theorem State.setLooks_groups (p : PerTrack Look) : (s.setLooks p).groups = s.groups := rfl
@[simp] theorem State.setLooks_armed (p : PerTrack Look) : (s.setLooks p).armed = s.armed := rfl
@[simp] theorem State.setLooks_tracks (p : PerTrack Look) : (s.setLooks p).tracks = s.tracks := rfl
@[simp] theorem State.setLooks_panel (p : PerTrack Look) : (s.setLooks p).panel = s.panel := rfl
@[simp] theorem State.setLooks_sfc (p : PerTrack Look) : (s.setLooks p).sfc = s.sfc := rfl
@[simp] theorem State.setLooks_reference (p : PerTrack Look) : (s.setLooks p).reference = s.reference := rfl
@[simp] theorem State.setLooks_qualifying (p : PerTrack Look) : (s.setLooks p).qualifying = s.qualifying := rfl
@[simp] theorem State.setLooks_sinceFrame (p : PerTrack Look) : (s.setLooks p).sinceFrame = s.sinceFrame := rfl
@[simp] theorem State.setLooks_sinceTimer (p : PerTrack Look) : (s.setLooks p).sinceTimer = s.sinceTimer := rfl
@[simp] theorem State.setLooks_sincePulse (p : PerTrack Look) : (s.setLooks p).sincePulse = s.sincePulse := rfl
@[simp] theorem State.setLooks_lastTick (p : PerTrack Look) : (s.setLooks p).lastTick = s.lastTick := rfl
@[simp] theorem State.setLooks_status (p : PerTrack Look) : (s.setLooks p).status = s.status := rfl
@[simp] theorem State.setLooks_presenters (p : PerTrack Look) : (s.setLooks p).presenters = s.presenters := rfl
@[simp] theorem State.setLooks_readsDone (p : PerTrack Look) : (s.setLooks p).readsDone = s.readsDone := rfl
@[simp] theorem State.setLooks_firing (p : PerTrack Look) : (s.setLooks p).firing = s.firing := rfl
@[simp] theorem State.setLooks_cuesDone (p : PerTrack Look) : (s.setLooks p).cuesDone = s.cuesDone := rfl
@[simp] theorem State.setLooks_routes (p : PerTrack Look) : (s.setLooks p).routes = s.routes := rfl
@[simp] theorem State.setLooks_isGlobal (p : PerTrack Look) : (s.setLooks p).isGlobal = s.isGlobal := rfl
@[simp] theorem State.setLooks_defaultRoute (p : PerTrack Look) : (s.setLooks p).defaultRoute = s.defaultRoute := rfl
@[simp] theorem State.setLooks_channels (p : PerTrack Look) : (s.setLooks p).channels = s.channels := rfl
@[simp] theorem State.setLooks_lights (p : PerTrack Look) : (s.setLooks p).lights = s.lights := rfl
@[simp] theorem State.setLooks_rotation (p : PerTrack Look) : (s.setLooks p).rotation = s.rotation := rfl
@[simp] theorem State.setLooks_buffer (p : PerTrack Look) : (s.setLooks p).buffer = s.buffer := rfl
@[simp] theorem State.setLooks_flags (p : PerTrack Look) : (s.setLooks p).flags = s.flags := rfl
@[simp] theorem State.setLooks_mask (p : PerTrack Look) : (s.setLooks p).mask = s.mask := rfl
@[simp] theorem State.setLooks_debounce (p : PerTrack Look) : (s.setLooks p).debounce = s.debounce := rfl
@[simp] theorem State.setLooks_frameRate (p : PerTrack Look) : (s.setLooks p).frameRate = s.frameRate := rfl
@[simp] theorem State.setLooks_deviceTx (p : PerTrack Look) : (s.setLooks p).deviceTx = s.deviceTx := rfl
@[simp] theorem State.setLooks_prompterTx (p : PerTrack Look) : (s.setLooks p).prompterTx = s.prompterTx := rfl
@[simp] theorem State.setLooks_displayTx (p : PerTrack Look) : (s.setLooks p).displayTx = s.displayTx := rfl
@[simp] theorem State.setLooks_deviceRx (p : PerTrack Look) : (s.setLooks p).deviceRx = s.deviceRx := rfl
@[simp] theorem State.setLooks_prompterRx (p : PerTrack Look) : (s.setLooks p).prompterRx = s.prompterRx := rfl
@[simp] theorem State.setLooks_held (p : PerTrack Look) : (s.setLooks p).held = s.held := rfl
@[simp] theorem State.setLooks_due (p : PerTrack Look) : (s.setLooks p).due = s.due := rfl
@[simp] theorem State.setLooks_cut (p : PerTrack Look) : (s.setLooks p).cut = s.cut := rfl
@[simp] theorem State.setLooks_counted (p : PerTrack Look) : (s.setLooks p).counted = s.counted := rfl
@[simp] theorem State.setLooks_looks (p : PerTrack Look) : (s.setLooks p).looks = p := rfl
@[simp] theorem State.setLooks_sdoStatus (p : PerTrack Look) : (s.setLooks p).sdoStatus = s.sdoStatus := rfl
@[simp] theorem State.setLooks_sdo (p : PerTrack Look) : (s.setLooks p).sdo = s.sdo := rfl
@[simp] theorem State.setLooks_pending (p : PerTrack Look) : (s.setLooks p).pending = s.pending := rfl
@[simp] theorem State.setLooks_slot (p : PerTrack Look) (j : Slot) : (s.setLooks p).slot j = s.slot j := rfl
@[simp] theorem State.setLooks_order (p : PerTrack Look) (u : Track) : (s.setLooks p).order u = s.order u := rfl
@[simp] theorem State.setLooks_group (p : PerTrack Look) (h : GroupNo) : (s.setLooks p).group h = s.group h := rfl
@[simp] theorem State.setLooks_armedQueue (p : PerTrack Look) (u : Track) : (s.setLooks p).armedQueue u = s.armedQueue u := rfl
@[simp] theorem State.setLooks_track (p : PerTrack Look) (u : Track) : (s.setLooks p).track u = s.track u := rfl
@[simp] theorem State.setLooks_input (p : PerTrack Look) (j : PanelInput) : (s.setLooks p).input j = s.input j := rfl
@[simp] theorem State.setLooks_statusOf (p : PerTrack Look) (u : Track) : (s.setLooks p).statusOf u = s.statusOf u := rfl
@[simp] theorem State.setLooks_presenter (p : PerTrack Look) (q : Pos) : (s.setLooks p).presenter q = s.presenter q := rfl
@[simp] theorem State.setLooks_look (p : PerTrack Look) (u : Track) : (s.setLooks p).look u = p.get u := rfl
@[simp] theorem State.setLooks_route (p : PerTrack Look) (m : RouteNo) : (s.setLooks p).route m = s.route m := rfl
@[simp] theorem State.setLooks_channel (p : PerTrack Look) (d : Chan) : (s.setLooks p).channel d = s.channel d := rfl
@[simp] theorem State.setLooks_light (p : PerTrack Look) (q : Pos) : (s.setLooks p).light q = s.light q := rfl
@[simp] theorem State.setLooks_tx (p : PerTrack Look) (k : Link) : (s.setLooks p).tx k = s.tx k := by cases k <;> rfl
@[simp] theorem State.setLooks_rx (p : PerTrack Look) (k : RxLink) : (s.setLooks p).rx k = s.rx k := by cases k <;> rfl

/-! ### raise -/

@[simp] theorem State.raise_slots (e : Event) : (s.raise e).slots = s.slots := rfl
@[simp] theorem State.raise_orders (e : Event) : (s.raise e).orders = s.orders := rfl
@[simp] theorem State.raise_groups (e : Event) : (s.raise e).groups = s.groups := rfl
@[simp] theorem State.raise_armed (e : Event) : (s.raise e).armed = s.armed := rfl
@[simp] theorem State.raise_tracks (e : Event) : (s.raise e).tracks = s.tracks := rfl
@[simp] theorem State.raise_panel (e : Event) : (s.raise e).panel = s.panel := rfl
@[simp] theorem State.raise_sfc (e : Event) : (s.raise e).sfc = s.sfc := rfl
@[simp] theorem State.raise_reference (e : Event) : (s.raise e).reference = s.reference := rfl
@[simp] theorem State.raise_qualifying (e : Event) : (s.raise e).qualifying = s.qualifying := rfl
@[simp] theorem State.raise_sinceFrame (e : Event) : (s.raise e).sinceFrame = s.sinceFrame := rfl
@[simp] theorem State.raise_sinceTimer (e : Event) : (s.raise e).sinceTimer = s.sinceTimer := rfl
@[simp] theorem State.raise_sincePulse (e : Event) : (s.raise e).sincePulse = s.sincePulse := rfl
@[simp] theorem State.raise_lastTick (e : Event) : (s.raise e).lastTick = s.lastTick := rfl
@[simp] theorem State.raise_status (e : Event) : (s.raise e).status = s.status := rfl
@[simp] theorem State.raise_presenters (e : Event) : (s.raise e).presenters = s.presenters := rfl
@[simp] theorem State.raise_readsDone (e : Event) : (s.raise e).readsDone = s.readsDone := rfl
@[simp] theorem State.raise_firing (e : Event) : (s.raise e).firing = s.firing := rfl
@[simp] theorem State.raise_cuesDone (e : Event) : (s.raise e).cuesDone = s.cuesDone := rfl
@[simp] theorem State.raise_routes (e : Event) : (s.raise e).routes = s.routes := rfl
@[simp] theorem State.raise_isGlobal (e : Event) : (s.raise e).isGlobal = s.isGlobal := rfl
@[simp] theorem State.raise_defaultRoute (e : Event) : (s.raise e).defaultRoute = s.defaultRoute := rfl
@[simp] theorem State.raise_channels (e : Event) : (s.raise e).channels = s.channels := rfl
@[simp] theorem State.raise_lights (e : Event) : (s.raise e).lights = s.lights := rfl
@[simp] theorem State.raise_rotation (e : Event) : (s.raise e).rotation = s.rotation := rfl
@[simp] theorem State.raise_buffer (e : Event) : (s.raise e).buffer = s.buffer := rfl
@[simp] theorem State.raise_flags (e : Event) : (s.raise e).flags = s.flags.put e := rfl
@[simp] theorem State.raise_mask (e : Event) : (s.raise e).mask = s.mask := rfl
@[simp] theorem State.raise_debounce (e : Event) : (s.raise e).debounce = s.debounce := rfl
@[simp] theorem State.raise_frameRate (e : Event) : (s.raise e).frameRate = s.frameRate := rfl
@[simp] theorem State.raise_deviceTx (e : Event) : (s.raise e).deviceTx = s.deviceTx := rfl
@[simp] theorem State.raise_prompterTx (e : Event) : (s.raise e).prompterTx = s.prompterTx := rfl
@[simp] theorem State.raise_displayTx (e : Event) : (s.raise e).displayTx = s.displayTx := rfl
@[simp] theorem State.raise_deviceRx (e : Event) : (s.raise e).deviceRx = s.deviceRx := rfl
@[simp] theorem State.raise_prompterRx (e : Event) : (s.raise e).prompterRx = s.prompterRx := rfl
@[simp] theorem State.raise_held (e : Event) : (s.raise e).held = s.held := rfl
@[simp] theorem State.raise_due (e : Event) : (s.raise e).due = s.due := rfl
@[simp] theorem State.raise_cut (e : Event) : (s.raise e).cut = s.cut := rfl
@[simp] theorem State.raise_counted (e : Event) : (s.raise e).counted = s.counted := rfl
@[simp] theorem State.raise_looks (e : Event) : (s.raise e).looks = s.looks := rfl
@[simp] theorem State.raise_sdoStatus (e : Event) : (s.raise e).sdoStatus = s.sdoStatus := rfl
@[simp] theorem State.raise_sdo (e : Event) : (s.raise e).sdo = s.sdo := rfl
@[simp] theorem State.raise_pending (e : Event) : (s.raise e).pending = s.pending := rfl
@[simp] theorem State.raise_slot (e : Event) (j : Slot) : (s.raise e).slot j = s.slot j := rfl
@[simp] theorem State.raise_order (e : Event) (u : Track) : (s.raise e).order u = s.order u := rfl
@[simp] theorem State.raise_group (e : Event) (h : GroupNo) : (s.raise e).group h = s.group h := rfl
@[simp] theorem State.raise_armedQueue (e : Event) (u : Track) : (s.raise e).armedQueue u = s.armedQueue u := rfl
@[simp] theorem State.raise_track (e : Event) (u : Track) : (s.raise e).track u = s.track u := rfl
@[simp] theorem State.raise_input (e : Event) (j : PanelInput) : (s.raise e).input j = s.input j := rfl
@[simp] theorem State.raise_statusOf (e : Event) (u : Track) : (s.raise e).statusOf u = s.statusOf u := rfl
@[simp] theorem State.raise_presenter (e : Event) (q : Pos) : (s.raise e).presenter q = s.presenter q := rfl
@[simp] theorem State.raise_look (e : Event) (u : Track) : (s.raise e).look u = s.look u := rfl
@[simp] theorem State.raise_route (e : Event) (m : RouteNo) : (s.raise e).route m = s.route m := rfl
@[simp] theorem State.raise_channel (e : Event) (d : Chan) : (s.raise e).channel d = s.channel d := rfl
@[simp] theorem State.raise_light (e : Event) (q : Pos) : (s.raise e).light q = s.light q := rfl
@[simp] theorem State.raise_tx (e : Event) (k : Link) : (s.raise e).tx k = s.tx k := by cases k <;> rfl
@[simp] theorem State.raise_rx (e : Event) (k : RxLink) : (s.raise e).rx k = s.rx k := by cases k <;> rfl

/-! ### setTx -/

@[simp] theorem State.setTx_slots (k : Link) (x : Transmit) : (s.setTx k x).slots = s.slots := by cases k <;> rfl
@[simp] theorem State.setTx_orders (k : Link) (x : Transmit) : (s.setTx k x).orders = s.orders := by cases k <;> rfl
@[simp] theorem State.setTx_groups (k : Link) (x : Transmit) : (s.setTx k x).groups = s.groups := by cases k <;> rfl
@[simp] theorem State.setTx_armed (k : Link) (x : Transmit) : (s.setTx k x).armed = s.armed := by cases k <;> rfl
@[simp] theorem State.setTx_tracks (k : Link) (x : Transmit) : (s.setTx k x).tracks = s.tracks := by cases k <;> rfl
@[simp] theorem State.setTx_panel (k : Link) (x : Transmit) : (s.setTx k x).panel = s.panel := by cases k <;> rfl
@[simp] theorem State.setTx_sfc (k : Link) (x : Transmit) : (s.setTx k x).sfc = s.sfc := by cases k <;> rfl
@[simp] theorem State.setTx_reference (k : Link) (x : Transmit) : (s.setTx k x).reference = s.reference := by cases k <;> rfl
@[simp] theorem State.setTx_qualifying (k : Link) (x : Transmit) : (s.setTx k x).qualifying = s.qualifying := by cases k <;> rfl
@[simp] theorem State.setTx_sinceFrame (k : Link) (x : Transmit) : (s.setTx k x).sinceFrame = s.sinceFrame := by cases k <;> rfl
@[simp] theorem State.setTx_sinceTimer (k : Link) (x : Transmit) : (s.setTx k x).sinceTimer = s.sinceTimer := by cases k <;> rfl
@[simp] theorem State.setTx_sincePulse (k : Link) (x : Transmit) : (s.setTx k x).sincePulse = s.sincePulse := by cases k <;> rfl
@[simp] theorem State.setTx_lastTick (k : Link) (x : Transmit) : (s.setTx k x).lastTick = s.lastTick := by cases k <;> rfl
@[simp] theorem State.setTx_status (k : Link) (x : Transmit) : (s.setTx k x).status = s.status := by cases k <;> rfl
@[simp] theorem State.setTx_presenters (k : Link) (x : Transmit) : (s.setTx k x).presenters = s.presenters := by cases k <;> rfl
@[simp] theorem State.setTx_readsDone (k : Link) (x : Transmit) : (s.setTx k x).readsDone = s.readsDone := by cases k <;> rfl
@[simp] theorem State.setTx_firing (k : Link) (x : Transmit) : (s.setTx k x).firing = s.firing := by cases k <;> rfl
@[simp] theorem State.setTx_cuesDone (k : Link) (x : Transmit) : (s.setTx k x).cuesDone = s.cuesDone := by cases k <;> rfl
@[simp] theorem State.setTx_routes (k : Link) (x : Transmit) : (s.setTx k x).routes = s.routes := by cases k <;> rfl
@[simp] theorem State.setTx_isGlobal (k : Link) (x : Transmit) : (s.setTx k x).isGlobal = s.isGlobal := by cases k <;> rfl
@[simp] theorem State.setTx_defaultRoute (k : Link) (x : Transmit) : (s.setTx k x).defaultRoute = s.defaultRoute := by cases k <;> rfl
@[simp] theorem State.setTx_channels (k : Link) (x : Transmit) : (s.setTx k x).channels = s.channels := by cases k <;> rfl
@[simp] theorem State.setTx_lights (k : Link) (x : Transmit) : (s.setTx k x).lights = s.lights := by cases k <;> rfl
@[simp] theorem State.setTx_rotation (k : Link) (x : Transmit) : (s.setTx k x).rotation = s.rotation := by cases k <;> rfl
@[simp] theorem State.setTx_buffer (k : Link) (x : Transmit) : (s.setTx k x).buffer = s.buffer := by cases k <;> rfl
@[simp] theorem State.setTx_flags (k : Link) (x : Transmit) : (s.setTx k x).flags = s.flags := by cases k <;> rfl
@[simp] theorem State.setTx_mask (k : Link) (x : Transmit) : (s.setTx k x).mask = s.mask := by cases k <;> rfl
@[simp] theorem State.setTx_debounce (k : Link) (x : Transmit) : (s.setTx k x).debounce = s.debounce := by cases k <;> rfl
@[simp] theorem State.setTx_frameRate (k : Link) (x : Transmit) : (s.setTx k x).frameRate = s.frameRate := by cases k <;> rfl
@[simp] theorem State.setTx_deviceRx (k : Link) (x : Transmit) : (s.setTx k x).deviceRx = s.deviceRx := by cases k <;> rfl
@[simp] theorem State.setTx_prompterRx (k : Link) (x : Transmit) : (s.setTx k x).prompterRx = s.prompterRx := by cases k <;> rfl
@[simp] theorem State.setTx_held (k : Link) (x : Transmit) : (s.setTx k x).held = s.held := by cases k <;> rfl
@[simp] theorem State.setTx_due (k : Link) (x : Transmit) : (s.setTx k x).due = s.due := by cases k <;> rfl
@[simp] theorem State.setTx_cut (k : Link) (x : Transmit) : (s.setTx k x).cut = s.cut := by cases k <;> rfl
@[simp] theorem State.setTx_counted (k : Link) (x : Transmit) : (s.setTx k x).counted = s.counted := by cases k <;> rfl
@[simp] theorem State.setTx_looks (k : Link) (x : Transmit) : (s.setTx k x).looks = s.looks := by cases k <;> rfl
@[simp] theorem State.setTx_sdoStatus (k : Link) (x : Transmit) : (s.setTx k x).sdoStatus = s.sdoStatus := by cases k <;> rfl
@[simp] theorem State.setTx_sdo (k : Link) (x : Transmit) : (s.setTx k x).sdo = s.sdo := by cases k <;> rfl
@[simp] theorem State.setTx_pending (k : Link) (x : Transmit) : (s.setTx k x).pending = s.pending := by cases k <;> rfl
@[simp] theorem State.setTx_slot (k : Link) (x : Transmit) (j : Slot) : (s.setTx k x).slot j = s.slot j := by cases k <;> rfl
@[simp] theorem State.setTx_order (k : Link) (x : Transmit) (u : Track) : (s.setTx k x).order u = s.order u := by cases k <;> rfl
@[simp] theorem State.setTx_group (k : Link) (x : Transmit) (h : GroupNo) : (s.setTx k x).group h = s.group h := by cases k <;> rfl
@[simp] theorem State.setTx_armedQueue (k : Link) (x : Transmit) (u : Track) : (s.setTx k x).armedQueue u = s.armedQueue u := by cases k <;> rfl
@[simp] theorem State.setTx_track (k : Link) (x : Transmit) (u : Track) : (s.setTx k x).track u = s.track u := by cases k <;> rfl
@[simp] theorem State.setTx_input (k : Link) (x : Transmit) (j : PanelInput) : (s.setTx k x).input j = s.input j := by cases k <;> rfl
@[simp] theorem State.setTx_statusOf (k : Link) (x : Transmit) (u : Track) : (s.setTx k x).statusOf u = s.statusOf u := by cases k <;> rfl
@[simp] theorem State.setTx_presenter (k : Link) (x : Transmit) (q : Pos) : (s.setTx k x).presenter q = s.presenter q := by cases k <;> rfl
@[simp] theorem State.setTx_look (k : Link) (x : Transmit) (u : Track) : (s.setTx k x).look u = s.look u := by cases k <;> rfl
@[simp] theorem State.setTx_route (k : Link) (x : Transmit) (m : RouteNo) : (s.setTx k x).route m = s.route m := by cases k <;> rfl
@[simp] theorem State.setTx_channel (k : Link) (x : Transmit) (d : Chan) : (s.setTx k x).channel d = s.channel d := by cases k <;> rfl
@[simp] theorem State.setTx_light (k : Link) (x : Transmit) (q : Pos) : (s.setTx k x).light q = s.light q := by cases k <;> rfl

/-! ### setRx -/

@[simp] theorem State.setRx_slots (k : RxLink) (x : Receiver) : (s.setRx k x).slots = s.slots := by cases k <;> rfl
@[simp] theorem State.setRx_orders (k : RxLink) (x : Receiver) : (s.setRx k x).orders = s.orders := by cases k <;> rfl
@[simp] theorem State.setRx_groups (k : RxLink) (x : Receiver) : (s.setRx k x).groups = s.groups := by cases k <;> rfl
@[simp] theorem State.setRx_armed (k : RxLink) (x : Receiver) : (s.setRx k x).armed = s.armed := by cases k <;> rfl
@[simp] theorem State.setRx_tracks (k : RxLink) (x : Receiver) : (s.setRx k x).tracks = s.tracks := by cases k <;> rfl
@[simp] theorem State.setRx_panel (k : RxLink) (x : Receiver) : (s.setRx k x).panel = s.panel := by cases k <;> rfl
@[simp] theorem State.setRx_sfc (k : RxLink) (x : Receiver) : (s.setRx k x).sfc = s.sfc := by cases k <;> rfl
@[simp] theorem State.setRx_reference (k : RxLink) (x : Receiver) : (s.setRx k x).reference = s.reference := by cases k <;> rfl
@[simp] theorem State.setRx_qualifying (k : RxLink) (x : Receiver) : (s.setRx k x).qualifying = s.qualifying := by cases k <;> rfl
@[simp] theorem State.setRx_sinceFrame (k : RxLink) (x : Receiver) : (s.setRx k x).sinceFrame = s.sinceFrame := by cases k <;> rfl
@[simp] theorem State.setRx_sinceTimer (k : RxLink) (x : Receiver) : (s.setRx k x).sinceTimer = s.sinceTimer := by cases k <;> rfl
@[simp] theorem State.setRx_sincePulse (k : RxLink) (x : Receiver) : (s.setRx k x).sincePulse = s.sincePulse := by cases k <;> rfl
@[simp] theorem State.setRx_lastTick (k : RxLink) (x : Receiver) : (s.setRx k x).lastTick = s.lastTick := by cases k <;> rfl
@[simp] theorem State.setRx_status (k : RxLink) (x : Receiver) : (s.setRx k x).status = s.status := by cases k <;> rfl
@[simp] theorem State.setRx_presenters (k : RxLink) (x : Receiver) : (s.setRx k x).presenters = s.presenters := by cases k <;> rfl
@[simp] theorem State.setRx_readsDone (k : RxLink) (x : Receiver) : (s.setRx k x).readsDone = s.readsDone := by cases k <;> rfl
@[simp] theorem State.setRx_firing (k : RxLink) (x : Receiver) : (s.setRx k x).firing = s.firing := by cases k <;> rfl
@[simp] theorem State.setRx_cuesDone (k : RxLink) (x : Receiver) : (s.setRx k x).cuesDone = s.cuesDone := by cases k <;> rfl
@[simp] theorem State.setRx_routes (k : RxLink) (x : Receiver) : (s.setRx k x).routes = s.routes := by cases k <;> rfl
@[simp] theorem State.setRx_isGlobal (k : RxLink) (x : Receiver) : (s.setRx k x).isGlobal = s.isGlobal := by cases k <;> rfl
@[simp] theorem State.setRx_defaultRoute (k : RxLink) (x : Receiver) : (s.setRx k x).defaultRoute = s.defaultRoute := by cases k <;> rfl
@[simp] theorem State.setRx_channels (k : RxLink) (x : Receiver) : (s.setRx k x).channels = s.channels := by cases k <;> rfl
@[simp] theorem State.setRx_lights (k : RxLink) (x : Receiver) : (s.setRx k x).lights = s.lights := by cases k <;> rfl
@[simp] theorem State.setRx_rotation (k : RxLink) (x : Receiver) : (s.setRx k x).rotation = s.rotation := by cases k <;> rfl
@[simp] theorem State.setRx_buffer (k : RxLink) (x : Receiver) : (s.setRx k x).buffer = s.buffer := by cases k <;> rfl
@[simp] theorem State.setRx_flags (k : RxLink) (x : Receiver) : (s.setRx k x).flags = s.flags := by cases k <;> rfl
@[simp] theorem State.setRx_mask (k : RxLink) (x : Receiver) : (s.setRx k x).mask = s.mask := by cases k <;> rfl
@[simp] theorem State.setRx_debounce (k : RxLink) (x : Receiver) : (s.setRx k x).debounce = s.debounce := by cases k <;> rfl
@[simp] theorem State.setRx_frameRate (k : RxLink) (x : Receiver) : (s.setRx k x).frameRate = s.frameRate := by cases k <;> rfl
@[simp] theorem State.setRx_deviceTx (k : RxLink) (x : Receiver) : (s.setRx k x).deviceTx = s.deviceTx := by cases k <;> rfl
@[simp] theorem State.setRx_prompterTx (k : RxLink) (x : Receiver) : (s.setRx k x).prompterTx = s.prompterTx := by cases k <;> rfl
@[simp] theorem State.setRx_displayTx (k : RxLink) (x : Receiver) : (s.setRx k x).displayTx = s.displayTx := by cases k <;> rfl
@[simp] theorem State.setRx_held (k : RxLink) (x : Receiver) : (s.setRx k x).held = s.held := by cases k <;> rfl
@[simp] theorem State.setRx_due (k : RxLink) (x : Receiver) : (s.setRx k x).due = s.due := by cases k <;> rfl
@[simp] theorem State.setRx_cut (k : RxLink) (x : Receiver) : (s.setRx k x).cut = s.cut := by cases k <;> rfl
@[simp] theorem State.setRx_counted (k : RxLink) (x : Receiver) : (s.setRx k x).counted = s.counted := by cases k <;> rfl
@[simp] theorem State.setRx_looks (k : RxLink) (x : Receiver) : (s.setRx k x).looks = s.looks := by cases k <;> rfl
@[simp] theorem State.setRx_sdoStatus (k : RxLink) (x : Receiver) : (s.setRx k x).sdoStatus = s.sdoStatus := by cases k <;> rfl
@[simp] theorem State.setRx_sdo (k : RxLink) (x : Receiver) : (s.setRx k x).sdo = s.sdo := by cases k <;> rfl
@[simp] theorem State.setRx_pending (k : RxLink) (x : Receiver) : (s.setRx k x).pending = s.pending := by cases k <;> rfl
@[simp] theorem State.setRx_slot (k : RxLink) (x : Receiver) (j : Slot) : (s.setRx k x).slot j = s.slot j := by cases k <;> rfl
@[simp] theorem State.setRx_order (k : RxLink) (x : Receiver) (u : Track) : (s.setRx k x).order u = s.order u := by cases k <;> rfl
@[simp] theorem State.setRx_group (k : RxLink) (x : Receiver) (h : GroupNo) : (s.setRx k x).group h = s.group h := by cases k <;> rfl
@[simp] theorem State.setRx_armedQueue (k : RxLink) (x : Receiver) (u : Track) : (s.setRx k x).armedQueue u = s.armedQueue u := by cases k <;> rfl
@[simp] theorem State.setRx_track (k : RxLink) (x : Receiver) (u : Track) : (s.setRx k x).track u = s.track u := by cases k <;> rfl
@[simp] theorem State.setRx_input (k : RxLink) (x : Receiver) (j : PanelInput) : (s.setRx k x).input j = s.input j := by cases k <;> rfl
@[simp] theorem State.setRx_statusOf (k : RxLink) (x : Receiver) (u : Track) : (s.setRx k x).statusOf u = s.statusOf u := by cases k <;> rfl
@[simp] theorem State.setRx_presenter (k : RxLink) (x : Receiver) (q : Pos) : (s.setRx k x).presenter q = s.presenter q := by cases k <;> rfl
@[simp] theorem State.setRx_look (k : RxLink) (x : Receiver) (u : Track) : (s.setRx k x).look u = s.look u := by cases k <;> rfl
@[simp] theorem State.setRx_route (k : RxLink) (x : Receiver) (m : RouteNo) : (s.setRx k x).route m = s.route m := by cases k <;> rfl
@[simp] theorem State.setRx_channel (k : RxLink) (x : Receiver) (d : Chan) : (s.setRx k x).channel d = s.channel d := by cases k <;> rfl
@[simp] theorem State.setRx_light (k : RxLink) (x : Receiver) (q : Pos) : (s.setRx k x).light q = s.light q := by cases k <;> rfl

/-! ### emit -/

@[simp] theorem State.emit_slots (k : Link) (f : OutFrame) : (s.emit k f).slots = s.slots := by cases k <;> rfl
@[simp] theorem State.emit_orders (k : Link) (f : OutFrame) : (s.emit k f).orders = s.orders := by cases k <;> rfl
@[simp] theorem State.emit_groups (k : Link) (f : OutFrame) : (s.emit k f).groups = s.groups := by cases k <;> rfl
@[simp] theorem State.emit_armed (k : Link) (f : OutFrame) : (s.emit k f).armed = s.armed := by cases k <;> rfl
@[simp] theorem State.emit_tracks (k : Link) (f : OutFrame) : (s.emit k f).tracks = s.tracks := by cases k <;> rfl
@[simp] theorem State.emit_panel (k : Link) (f : OutFrame) : (s.emit k f).panel = s.panel := by cases k <;> rfl
@[simp] theorem State.emit_sfc (k : Link) (f : OutFrame) : (s.emit k f).sfc = s.sfc := by cases k <;> rfl
@[simp] theorem State.emit_reference (k : Link) (f : OutFrame) : (s.emit k f).reference = s.reference := by cases k <;> rfl
@[simp] theorem State.emit_qualifying (k : Link) (f : OutFrame) : (s.emit k f).qualifying = s.qualifying := by cases k <;> rfl
@[simp] theorem State.emit_sinceFrame (k : Link) (f : OutFrame) : (s.emit k f).sinceFrame = s.sinceFrame := by cases k <;> rfl
@[simp] theorem State.emit_sinceTimer (k : Link) (f : OutFrame) : (s.emit k f).sinceTimer = s.sinceTimer := by cases k <;> rfl
@[simp] theorem State.emit_sincePulse (k : Link) (f : OutFrame) : (s.emit k f).sincePulse = s.sincePulse := by cases k <;> rfl
@[simp] theorem State.emit_lastTick (k : Link) (f : OutFrame) : (s.emit k f).lastTick = s.lastTick := by cases k <;> rfl
@[simp] theorem State.emit_status (k : Link) (f : OutFrame) : (s.emit k f).status = s.status := by cases k <;> rfl
@[simp] theorem State.emit_presenters (k : Link) (f : OutFrame) : (s.emit k f).presenters = s.presenters := by cases k <;> rfl
@[simp] theorem State.emit_readsDone (k : Link) (f : OutFrame) : (s.emit k f).readsDone = s.readsDone := by cases k <;> rfl
@[simp] theorem State.emit_firing (k : Link) (f : OutFrame) : (s.emit k f).firing = s.firing := by cases k <;> rfl
@[simp] theorem State.emit_cuesDone (k : Link) (f : OutFrame) : (s.emit k f).cuesDone = s.cuesDone := by cases k <;> rfl
@[simp] theorem State.emit_routes (k : Link) (f : OutFrame) : (s.emit k f).routes = s.routes := by cases k <;> rfl
@[simp] theorem State.emit_isGlobal (k : Link) (f : OutFrame) : (s.emit k f).isGlobal = s.isGlobal := by cases k <;> rfl
@[simp] theorem State.emit_defaultRoute (k : Link) (f : OutFrame) : (s.emit k f).defaultRoute = s.defaultRoute := by cases k <;> rfl
@[simp] theorem State.emit_channels (k : Link) (f : OutFrame) : (s.emit k f).channels = s.channels := by cases k <;> rfl
@[simp] theorem State.emit_lights (k : Link) (f : OutFrame) : (s.emit k f).lights = s.lights := by cases k <;> rfl
@[simp] theorem State.emit_rotation (k : Link) (f : OutFrame) : (s.emit k f).rotation = s.rotation := by cases k <;> rfl
@[simp] theorem State.emit_buffer (k : Link) (f : OutFrame) : (s.emit k f).buffer = s.buffer := by cases k <;> rfl
@[simp] theorem State.emit_flags (k : Link) (f : OutFrame) : (s.emit k f).flags = s.flags := by cases k <;> rfl
@[simp] theorem State.emit_mask (k : Link) (f : OutFrame) : (s.emit k f).mask = s.mask := by cases k <;> rfl
@[simp] theorem State.emit_debounce (k : Link) (f : OutFrame) : (s.emit k f).debounce = s.debounce := by cases k <;> rfl
@[simp] theorem State.emit_frameRate (k : Link) (f : OutFrame) : (s.emit k f).frameRate = s.frameRate := by cases k <;> rfl
@[simp] theorem State.emit_deviceRx (k : Link) (f : OutFrame) : (s.emit k f).deviceRx = s.deviceRx := by cases k <;> rfl
@[simp] theorem State.emit_prompterRx (k : Link) (f : OutFrame) : (s.emit k f).prompterRx = s.prompterRx := by cases k <;> rfl
@[simp] theorem State.emit_held (k : Link) (f : OutFrame) : (s.emit k f).held = s.held := by cases k <;> rfl
@[simp] theorem State.emit_due (k : Link) (f : OutFrame) : (s.emit k f).due = s.due := by cases k <;> rfl
@[simp] theorem State.emit_cut (k : Link) (f : OutFrame) : (s.emit k f).cut = s.cut := by cases k <;> rfl
@[simp] theorem State.emit_counted (k : Link) (f : OutFrame) : (s.emit k f).counted = s.counted := by cases k <;> rfl
@[simp] theorem State.emit_looks (k : Link) (f : OutFrame) : (s.emit k f).looks = s.looks := by cases k <;> rfl
@[simp] theorem State.emit_sdoStatus (k : Link) (f : OutFrame) : (s.emit k f).sdoStatus = s.sdoStatus := by cases k <;> rfl
@[simp] theorem State.emit_sdo (k : Link) (f : OutFrame) : (s.emit k f).sdo = s.sdo := by cases k <;> rfl
@[simp] theorem State.emit_pending (k : Link) (f : OutFrame) : (s.emit k f).pending = s.pending := by cases k <;> rfl
@[simp] theorem State.emit_slot (k : Link) (f : OutFrame) (j : Slot) : (s.emit k f).slot j = s.slot j := by cases k <;> rfl
@[simp] theorem State.emit_order (k : Link) (f : OutFrame) (u : Track) : (s.emit k f).order u = s.order u := by cases k <;> rfl
@[simp] theorem State.emit_group (k : Link) (f : OutFrame) (h : GroupNo) : (s.emit k f).group h = s.group h := by cases k <;> rfl
@[simp] theorem State.emit_armedQueue (k : Link) (f : OutFrame) (u : Track) : (s.emit k f).armedQueue u = s.armedQueue u := by cases k <;> rfl
@[simp] theorem State.emit_track (k : Link) (f : OutFrame) (u : Track) : (s.emit k f).track u = s.track u := by cases k <;> rfl
@[simp] theorem State.emit_input (k : Link) (f : OutFrame) (j : PanelInput) : (s.emit k f).input j = s.input j := by cases k <;> rfl
@[simp] theorem State.emit_statusOf (k : Link) (f : OutFrame) (u : Track) : (s.emit k f).statusOf u = s.statusOf u := by cases k <;> rfl
@[simp] theorem State.emit_presenter (k : Link) (f : OutFrame) (q : Pos) : (s.emit k f).presenter q = s.presenter q := by cases k <;> rfl
@[simp] theorem State.emit_look (k : Link) (f : OutFrame) (u : Track) : (s.emit k f).look u = s.look u := by cases k <;> rfl
@[simp] theorem State.emit_route (k : Link) (f : OutFrame) (m : RouteNo) : (s.emit k f).route m = s.route m := by cases k <;> rfl
@[simp] theorem State.emit_channel (k : Link) (f : OutFrame) (d : Chan) : (s.emit k f).channel d = s.channel d := by cases k <;> rfl
@[simp] theorem State.emit_light (k : Link) (f : OutFrame) (q : Pos) : (s.emit k f).light q = s.light q := by cases k <;> rfl

@[simp] theorem State.setTx_rx (k : Link) (x : Transmit) (j : RxLink) : (s.setTx k x).rx j = s.rx j := by cases k <;> cases j <;> rfl
@[simp] theorem State.emit_rx (k : Link) (f : OutFrame) (j : RxLink) : (s.emit k f).rx j = s.rx j := State.setTx_rx s k _ j
@[simp] theorem State.setRx_tx (k : RxLink) (x : Receiver) (j : Link) : (s.setRx k x).tx j = s.tx j := by cases k <;> cases j <;> rfl
@[simp] theorem State.setRx_rx_self (k : RxLink) (x : Receiver) : (s.setRx k x).rx k = x := by cases k <;> simp [State.setRx, State.rx]
@[simp] theorem State.setTx_tx_self (k : Link) (x : Transmit) : (s.setTx k x).tx k = x := by cases k <;> simp [State.setTx, State.tx]

theorem State.setTx_tx_ne (k : Link) (x : Transmit) {j : Link} (h : j ≠ k) : (s.setTx k x).tx j = s.tx j := by
  cases k <;> cases j <;> simp_all [State.setTx, State.tx, Bank.get_set]

theorem State.setRx_rx_ne (k : RxLink) (x : Receiver) {j : RxLink} (h : j ≠ k) : (s.setRx k x).rx j = s.rx j := by
  cases k <;> cases j <;> simp_all [State.setRx, State.rx, Bank.get_set]

@[simp] theorem State.emit_tx_self (k : Link) (f : OutFrame) : (s.emit k f).tx k = (s.tx k).push f := s.setTx_tx_self k _

theorem State.emit_tx_ne (k : Link) (f : OutFrame) {j : Link} (h : j ≠ k) : (s.emit k f).tx j = s.tx j := s.setTx_tx_ne k _ h

end Sys2Proof.Machine
end

