-- ==== Sys2Proof/Laws/CueLevel.lean ====
section
/-! SUPPORT. What arming, offers, abandonment and the channels keep: everything but cue states, cue faults, the firing list, the
completions, the channels, the device links and the event flags. One lemma for each operation. -/

namespace Sys2Proof.Machine

/-! ### Event flags only rise -/

theorem EventSet.Within.refl (f : EventSet) : f.Within f := fun _ h => h

theorem EventSet.Within.trans {f g h : EventSet} (a : f.Within g) (b : g.Within h) : f.Within h := fun e k => b e (a e k)

theorem EventSet.within_put (f : EventSet) (e : Event) : f.Within (f.put e) := by
  intro x h; cases e <;> cases x <;> simp_all [EventSet.put, EventSet.get]

@[simp] theorem EventSet.get_put_self (f : EventSet) (e : Event) : (f.put e).get e = true := by cases e <;> rfl

theorem EventSet.get_put_ne (f : EventSet) {e x : Event} (h : x ≠ e) : (f.put e).get x = f.get x := by
  cases e <;> cases x <;> first | rfl | exact absurd rfl h

/-! ### Aside -/

theorem State.Aside.refl (s : State) : s.Aside s := by constructor <;> rfl

theorem State.Aside.trans {s t u : State} (a : s.Aside t) (b : t.Aside u) : s.Aside u := by
  constructor
  all_goals first
    | rw [b.panel, a.panel] | rw [b.sfc, a.sfc] | rw [b.reference, a.reference] | rw [b.qualifying, a.qualifying]
    | rw [b.sinceFrame, a.sinceFrame] | rw [b.sinceTimer, a.sinceTimer] | rw [b.sincePulse, a.sincePulse]
    | rw [b.lastTick, a.lastTick] | rw [b.presenters, a.presenters] | rw [b.routes, a.routes] | rw [b.isGlobal, a.isGlobal]
    | rw [b.defaultRoute, a.defaultRoute] | rw [b.lights, a.lights] | rw [b.rotation, a.rotation] | rw [b.mask, a.mask]
    | rw [b.debounce, a.debounce] | rw [b.frameRate, a.frameRate] | rw [b.displayTx, a.displayTx] | rw [b.deviceRx, a.deviceRx]
    | rw [b.prompterRx, a.prompterRx] | rw [b.held, a.held] | rw [b.due, a.due] | rw [b.cut, a.cut]
    | rw [b.counted, a.counted] | rw [b.looks, a.looks] | rw [b.pending, a.pending]

/-- What a take keeps besides: all of that but the marks of takes made ahead of a sequencer's frame work, and what the sequencers look
at. -/
theorem State.Aside.apart {s t : State} (h : s.Aside t) : ((s.setCut t.cut).setLooks t.looks).Aside t :=
  ⟨h.panel, h.sfc, h.reference, h.qualifying, h.sinceFrame, h.sinceTimer, h.sincePulse, h.lastTick, h.presenters, h.routes, h.isGlobal,
   h.defaultRoute, h.lights, h.rotation, h.mask, h.debounce, h.frameRate, h.displayTx, h.deviceRx, h.prompterRx, h.held, h.due, rfl,
   h.counted, rfl, h.pending⟩

theorem State.Aside.apart_trans {s t u : State} (a : ((s.setCut t.cut).setLooks t.looks).Aside t)
    (b : ((t.setCut u.cut).setLooks u.looks).Aside u) : ((s.setCut u.cut).setLooks u.looks).Aside u :=
  ⟨b.panel.trans a.panel, b.sfc.trans a.sfc, b.reference.trans a.reference, b.qualifying.trans a.qualifying,
   b.sinceFrame.trans a.sinceFrame, b.sinceTimer.trans a.sinceTimer, b.sincePulse.trans a.sincePulse, b.lastTick.trans a.lastTick,
   b.presenters.trans a.presenters, b.routes.trans a.routes, b.isGlobal.trans a.isGlobal, b.defaultRoute.trans a.defaultRoute,
   b.lights.trans a.lights, b.rotation.trans a.rotation, b.mask.trans a.mask, b.debounce.trans a.debounce,
   b.frameRate.trans a.frameRate, b.displayTx.trans a.displayTx, b.deviceRx.trans a.deviceRx, b.prompterRx.trans a.prompterRx,
   b.held.trans a.held, b.due.trans a.due, rfl, b.counted.trans a.counted, rfl, b.pending.trans a.pending⟩

/-! ### Cue-level operations -/

/-- What a cue-level operation keeps of an item: all but its cue fault and what the cue scheduler keeps of its cues. -/
structure Item.Kept (x y : Item) : Prop where
  condition : y.condition = x.condition
  revision : y.revision = x.revision
  airing : y.airing = x.airing
  track : y.track = x.track
  fields : y.fields = x.fields
  state : y.state = x.state
  specs : y.cues.map Cue.spec = x.cues.map Cue.spec
  start : y.start = x.start
  actual : y.actual = x.actual
  prompterEnd : y.prompterEnd = x.prompterEnd

theorem Item.Kept.refl (x : Item) : x.Kept x := by constructor <;> rfl

theorem Item.Kept.trans {x y z : Item} (a : x.Kept y) (b : y.Kept z) : x.Kept z :=
  ⟨b.condition.trans a.condition, b.revision.trans a.revision, b.airing.trans a.airing, b.track.trans a.track,
   b.fields.trans a.fields, b.state.trans a.state, b.specs.trans a.specs, b.start.trans a.start, b.actual.trans a.actual,
   b.prompterEnd.trans a.prompterEnd⟩

/-- What a cue-level operation keeps. -/
structure State.CueLevel (s t : State) : Prop where
  aside : s.Aside t
  flags : s.flags.Within t.flags
  orders : t.orders = s.orders
  groups : t.groups = s.groups
  armed : t.armed = s.armed
  tracks : t.tracks = s.tracks
  status : t.status = s.status
  readsDone : t.readsDone = s.readsDone
  prompterTx : t.prompterTx = s.prompterTx
  buffer : t.buffer = s.buffer
  sdoStatus : t.sdoStatus = s.sdoStatus
  sdo : t.sdo = s.sdo
  items : ∀ i, (s.slot i).Kept (t.slot i)

theorem State.CueLevel.refl (s : State) : s.CueLevel s :=
  ⟨.refl s, .refl _, rfl, rfl, rfl, rfl, rfl, rfl, rfl, rfl, rfl, rfl, fun _ => .refl _⟩

theorem State.CueLevel.trans {s t u : State} (a : s.CueLevel t) (b : t.CueLevel u) : s.CueLevel u :=
  ⟨a.aside.trans b.aside, a.flags.trans b.flags, b.orders.trans a.orders, b.groups.trans a.groups, b.armed.trans a.armed,
   b.tracks.trans a.tracks, b.status.trans a.status, b.readsDone.trans a.readsDone, b.prompterTx.trans a.prompterTx,
   b.buffer.trans a.buffer, b.sdoStatus.trans a.sdoStatus, b.sdo.trans a.sdo, fun i => (a.items i).trans (b.items i)⟩

theorem State.CueLevel.foldl {α : Type} {f : State → α → State} (h : ∀ (s : State) x, s.CueLevel (f s x)) (l : List α) (s : State) :
    s.CueLevel (l.foldl f s) := by
  induction l generalizing s with
  | nil => exact .refl s
  | cons x l ih => exact (h s x).trans (ih _)

theorem State.CueLevel.track {s t : State} (h : s.CueLevel t) (u : Track) : t.track u = s.track u := by
  simp [State.track, h.tracks]

theorem State.CueLevel.order {s t : State} (h : s.CueLevel t) (u : Track) : t.order u = s.order u := by
  simp [State.order, h.orders]

/-- A record replaced by one that keeps what a cue-level operation keeps. -/
theorem State.cueLevel_setSlot {s : State} {i : Slot} {x : Item} (h : (s.slot i).Kept x) : s.CueLevel (s.setSlot i x) := by
  refine ⟨by constructor <;> rfl, .refl _, rfl, rfl, rfl, rfl, rfl, rfl, rfl, rfl, rfl, rfl, fun j => ?_⟩
  rw [State.setSlot_slot]
  split
  · next e => subst e; exact h
  · exact .refl _

theorem State.cueLevel_setChannel (s : State) (c : Chan) (x : Channel) : s.CueLevel (s.setChannel c x) :=
  ⟨by constructor <;> rfl, .refl _, rfl, rfl, rfl, rfl, rfl, rfl, rfl, rfl, rfl, rfl, fun _ => .refl _⟩

theorem State.cueLevel_setFiring (s : State) (l : List Firing) : s.CueLevel (s.setFiring l) :=
  ⟨by constructor <;> rfl, .refl _, rfl, rfl, rfl, rfl, rfl, rfl, rfl, rfl, rfl, rfl, fun _ => .refl _⟩

theorem State.cueLevel_setCuesDone (s : State) (l : List CueDone) : s.CueLevel (s.setCuesDone l) :=
  ⟨by constructor <;> rfl, .refl _, rfl, rfl, rfl, rfl, rfl, rfl, rfl, rfl, rfl, rfl, fun _ => .refl _⟩

theorem State.cueLevel_raise (s : State) (e : Event) : s.CueLevel (s.raise e) :=
  ⟨by constructor <;> rfl, EventSet.within_put _ e, rfl, rfl, rfl, rfl, rfl, rfl, rfl, rfl, rfl, rfl, fun _ => .refl _⟩

theorem State.cueLevel_emit (s : State) (c : Chan) (f : OutFrame) : s.CueLevel (s.emit (.device c) f) :=
  ⟨by constructor <;> rfl, .refl _, rfl, rfl, rfl, rfl, rfl, rfl, rfl, rfl, rfl, rfl, fun _ => .refl _⟩

/-- A change of one cue that keeps its host fields keeps every cue's. -/
theorem map_spec_modify (l : List Cue) (k : Nat) (f : Cue → Cue) (h : ∀ q ∈ l[k]?, (f q).spec = q.spec) :
    (l.modify k f).map Cue.spec = l.map Cue.spec := by
  apply List.ext_getElem?
  intro n
  simp only [List.getElem?_map, List.getElem?_modify]
  by_cases e : k = n
  · subst e
    cases hq : l[k]? with
    | none => simp
    | some q => simp [h q (by simp [hq])]
  · simp [e]

theorem State.cueLevel_modifyCue {s : State} {i : Slot} {k : Nat} {f : Cue → Cue} (h : ∀ q ∈ s.cue? i k, (f q).spec = q.spec) :
    s.CueLevel (s.modifyCue i k f) :=
  State.cueLevel_setSlot ⟨rfl, rfl, rfl, rfl, rfl, rfl, map_spec_modify _ k f h, rfl, rfl, rfl⟩

theorem State.cueLevel_setCueState (s : State) (i : Slot) (k : Nat) (x : CueState) : s.CueLevel (s.setCueState i k x) :=
  State.cueLevel_modifyCue (fun _ _ => rfl)

theorem State.cueLevel_failCue (s : State) (i : Slot) (k : Nat) (c : FailCause) : s.CueLevel (s.failCue i k c) := by
  unfold State.failCue
  dsimp only
  refine State.CueLevel.trans ?_ (State.cueLevel_raise _ _)
  refine State.CueLevel.trans (State.cueLevel_modifyCue ?_) (State.cueLevel_setSlot ?_)
  · exact fun _ _ => rfl
  · constructor <;> rfl

/-! ### The channels -/

theorem State.cueLevel_send (s : State) (c : Chan) (q : Queued) (rest : List Queued) : s.CueLevel (s.send c q rest) :=
  ((State.cueLevel_setCueState _ _ _ _).trans (State.cueLevel_setChannel _ _ _)).trans (State.cueLevel_emit _ _ _)

theorem State.cueLevel_emptySlot (s : State) (c : Chan) (o : CueOutcome) : s.CueLevel (s.emptySlot c o) := by
  unfold State.emptySlot
  split
  · exact .refl s
  · exact (State.cueLevel_setChannel _ _ _).trans (State.cueLevel_setCuesDone _ _)

theorem State.cueLevel_rest (s : State) (c : Chan) (g : Nat) : s.CueLevel (s.rest c g) := by
  unfold State.rest
  split <;> exact State.cueLevel_setChannel _ _ _

theorem State.cueLevel_grantChain (c : Chan) (n : Nat) (s : State) : s.CueLevel (State.grantChain c n s) := by
  induction n generalizing s with
  | zero => exact .refl s
  | succ n ih =>
    rw [State.grantChain]
    split
    · split
      · exact .refl s
      · next q rest _ =>
        dsimp only
        split
        · exact (((State.cueLevel_send s c q rest).trans (State.cueLevel_emptySlot _ _ _)).trans
            (State.cueLevel_rest _ _ _)).trans (ih _)
        · exact State.cueLevel_send s c q rest
    · exact .refl s

theorem State.cueLevel_grant (s : State) (c : Chan) : s.CueLevel (s.grant c) := State.cueLevel_grantChain c _ s

theorem State.cueLevel_endCommand (s : State) (c : Chan) (o : CueOutcome) : s.CueLevel (s.endCommand c o) := by
  unfold State.endCommand
  split
  · exact .refl s
  · exact ((State.cueLevel_emptySlot _ _ _).trans (State.cueLevel_rest _ _ _)).trans (State.cueLevel_grant _ _)

theorem State.cueLevel_failQueued (s : State) (l : List Queued) (x : FailCause) : s.CueLevel (s.failQueued l x) :=
  State.CueLevel.foldl (fun s _ => State.cueLevel_failCue s _ _ _) l s

theorem State.cueLevel_failQueue (s : State) (c : Chan) (x : FailCause) : s.CueLevel (s.failQueue c x) :=
  (State.cueLevel_setChannel _ _ _).trans (State.cueLevel_failQueued _ _ _)

theorem State.cueLevel_offer (s : State) (e : Firing) : s.CueLevel (s.offer e) := by
  unfold State.offer
  have h0 := State.cueLevel_setFiring s (removeFiring e.slot e.index s.firing)
  split
  · exact h0
  · split
    · exact h0
    · dsimp only
      split
      · exact h0.trans (State.cueLevel_failCue _ _ _ _)
      · exact ((h0.trans (State.cueLevel_setCueState _ _ _ _)).trans (State.cueLevel_setChannel _ _ _)).trans
          (State.cueLevel_grant _ _)

theorem State.cueLevel_withdraw (s : State) (c : Chan) (i : Slot) (k : Nat) : s.CueLevel (s.withdraw c i k) :=
  (State.cueLevel_setChannel _ _ _).trans (State.cueLevel_grant _ _)

theorem State.cueLevel_noteFault (s : State) (c : Chan) (x : FaultCause) : s.CueLevel (s.noteFault c x) := by
  unfold State.noteFault
  dsimp only
  split
  · exact (State.cueLevel_setChannel _ _ _).trans (State.cueLevel_raise _ _)
  · exact State.cueLevel_setChannel _ _ _

theorem State.cueLevel_dropCommand (s : State) (c : Chan) (x : FaultCause) : s.CueLevel (s.dropCommand c x) :=
  (State.cueLevel_emptySlot _ _ _).trans (State.cueLevel_setChannel _ _ _)

theorem State.cueLevel_enterFault (s : State) (c : Chan) (x : FaultCause) : s.CueLevel (s.enterFault c x) := by
  unfold State.enterFault
  split
  · exact .refl s
  · dsimp only
    have h1 := State.cueLevel_noteFault s c x
    split
    · exact ((h1.trans (State.cueLevel_dropCommand _ _ _)).trans (State.cueLevel_setChannel _ _ _)).trans
        (State.cueLevel_failQueue _ _ _)
    · exact (h1.trans (State.cueLevel_dropCommand _ _ _)).trans (State.cueLevel_setChannel _ _ _)
    · exact h1
    · exact h1

theorem State.cueLevel_timeOut (s : State) (c : Chan) : s.CueLevel (s.timeOut c) := by
  unfold State.timeOut
  split
  · exact State.cueLevel_enterFault _ _ _
  · exact (State.cueLevel_endCommand _ _ _).trans (State.cueLevel_enterFault _ _ _)

theorem State.cueLevel_ageQueue (s : State) (c : Chan) : s.CueLevel (s.ageQueue c) :=
  (State.cueLevel_setChannel _ _ _).trans (State.cueLevel_failQueued _ _ _)

theorem State.cueLevel_beginWork (s : State) (c : Chan) : s.CueLevel (s.beginWork c) := State.cueLevel_setChannel _ _ _

theorem State.cueLevel_slotWork (s : State) (c : Chan) (b : Bool) : s.CueLevel (s.slotWork c b) := by
  unfold State.slotWork
  split
  · split
    · exact .refl s
    · dsimp only
      split
      · exact (State.cueLevel_setChannel _ _ _).trans (State.cueLevel_endCommand _ _ _)
      · split
        · exact (State.cueLevel_setChannel _ _ _).trans (State.cueLevel_timeOut _ _)
        · exact State.cueLevel_setChannel _ _ _
  · exact .refl s

theorem State.cueLevel_guardWork (s : State) (c : Chan) (b : Bool) : s.CueLevel (s.guardWork c b) := by
  unfold State.guardWork
  dsimp only
  split
  · exact State.cueLevel_setChannel _ _ _
  · exact .refl s

theorem State.cueLevel_recoveryWork (s : State) (c : Chan) (b : Bool) : s.CueLevel (s.recoveryWork c b) := by
  unfold State.recoveryWork
  dsimp only
  split
  · exact State.cueLevel_setChannel _ _ _
  · exact .refl s

theorem State.cueLevel_silenceWork (s : State) (c : Chan) : s.CueLevel (s.silenceWork c) := by
  unfold State.silenceWork
  dsimp only
  split
  · split
    · exact (State.cueLevel_setChannel _ _ _).trans (State.cueLevel_enterFault _ _ _)
    · exact State.cueLevel_setChannel _ _ _
  · exact .refl s

theorem State.cueLevel_pollWork (s : State) (c : Chan) : s.CueLevel (s.pollWork c) := by
  unfold State.pollWork
  dsimp only
  split
  · exact (State.cueLevel_setChannel _ _ _).trans (State.cueLevel_emit _ _ _)
  · split
    · exact State.cueLevel_setChannel _ _ _
    · exact .refl s

theorem State.cueLevel_afterSlotWork (s : State) (c : Chan) : s.CueLevel (s.afterSlotWork c) :=
  ((State.cueLevel_beginWork _ _).trans (State.cueLevel_ageQueue _ _)).trans (State.cueLevel_slotWork _ _ _)

theorem State.cueLevel_afterGrantWork (s : State) (c : Chan) : s.CueLevel (s.afterGrantWork c) :=
  (((State.cueLevel_afterSlotWork _ _).trans (State.cueLevel_guardWork _ _ _)).trans (State.cueLevel_recoveryWork _ _ _)).trans
    (State.cueLevel_grant _ _)

theorem State.cueLevel_channelWork (s : State) (c : Chan) : s.CueLevel (s.channelWork c) := by
  unfold State.channelWork
  split
  · exact State.cueLevel_beginWork _ _
  · exact (State.cueLevel_beginWork _ _).trans (State.cueLevel_ageQueue _ _)
  · exact ((State.cueLevel_afterGrantWork _ _).trans (State.cueLevel_silenceWork _ _)).trans (State.cueLevel_pollWork _ _)

theorem State.cueLevel_hear (s : State) (c : Chan) : s.CueLevel (s.hear c) := State.cueLevel_setChannel _ _ _

theorem State.cueLevel_takeAccept (s : State) (c : Chan) (tag : Byte) : s.CueLevel (s.takeAccept c tag) := by
  unfold State.takeAccept
  split
  · split
    · exact State.cueLevel_hear _ _
    · exact (State.cueLevel_hear _ _).trans (State.cueLevel_endCommand _ _ _)
  · exact State.cueLevel_hear _ _

theorem State.cueLevel_takeRefuse (s : State) (c : Chan) (tag : Byte) : s.CueLevel (s.takeRefuse c tag) := by
  unfold State.takeRefuse
  split
  · exact (State.cueLevel_hear _ _).trans (State.cueLevel_endCommand _ _ _)
  · exact State.cueLevel_hear _ _

theorem State.cueLevel_takeStatus (s : State) (c : Chan) (v : Byte) : s.CueLevel (s.takeStatus c v) := by
  unfold State.takeStatus
  split
  · exact (State.cueLevel_hear _ _).trans (State.cueLevel_enterFault _ _ _)
  · exact State.cueLevel_hear _ _

theorem State.cueLevel_clearChannel (s : State) (c : Chan) : s.CueLevel (s.clearChannel c) := by
  unfold State.clearChannel
  dsimp only
  split
  · exact .refl s
  · exact (State.cueLevel_setChannel _ _ _).trans (State.cueLevel_grant _ _)
  · exact (State.cueLevel_setChannel _ _ _).trans (State.cueLevel_grant _ _)
  · exact State.cueLevel_setChannel _ _ _

theorem State.cueLevel_clearAll (s : State) : s.CueLevel s.clearAll := State.CueLevel.foldl State.cueLevel_clearChannel _ s

theorem State.cueLevel_giveKind (s : State) (c : Chan) (k : ChannelKind) : s.CueLevel (s.giveKind c k) := by
  unfold State.giveKind
  split
  · split
    · exact State.cueLevel_setChannel _ _ _
    · dsimp only
      exact ((State.cueLevel_emptySlot _ _ _).trans (State.cueLevel_failQueue _ _ _)).trans (State.cueLevel_setChannel _ _ _)
  · split <;> exact State.cueLevel_setChannel _ _ _

theorem State.cueLevel_giveFaultMode (s : State) (c : Chan) (m : FaultMode) : s.CueLevel (s.giveFaultMode c m) := by
  unfold State.giveFaultMode
  dsimp only
  split
  · exact (State.cueLevel_setChannel _ _ _).trans (State.cueLevel_failQueue _ _ _)
  · exact State.cueLevel_setChannel _ _ _

/-! ### The cue scheduler -/

theorem State.cueLevel_armCue (ph : Phase) (b : Frame) (i : Slot) (s : State) (k : Nat) : s.CueLevel (State.armCue ph b i s k) := by
  unfold State.armCue
  split
  · exact .refl s
  · next q hq =>
    split
    · split
      · exact State.cueLevel_failCue _ _ _ _
      · dsimp only
        refine (State.cueLevel_modifyCue ?_).trans (State.cueLevel_setFiring _ _)
        intro p hp
        rw [hq] at hp
        cases hp
        unfold Cue.arm
        split <;> rfl
    · exact .refl s

theorem State.cueLevel_armPhase (s : State) (ph : Phase) (b : Frame) (i : Slot) : s.CueLevel (s.armPhase ph b i) :=
  (State.CueLevel.foldl (State.cueLevel_armCue ph b i) _ s).trans (State.CueLevel.foldl State.cueLevel_offer _ _)

theorem State.cueLevel_takeCueDone (s : State) (d : CueDone) : s.CueLevel (s.takeCueDone d) := by
  unfold State.takeCueDone
  split
  · split
    · exact State.cueLevel_setCueState _ _ _ _
    · exact State.cueLevel_failCue _ _ _ _
  · exact .refl s

theorem State.cueLevel_takeAllCueDone (s : State) : s.CueLevel s.takeAllCueDone :=
  (State.cueLevel_setCuesDone _ _).trans (State.CueLevel.foldl State.cueLevel_takeCueDone _ _)

theorem State.cueLevel_schedulerWork (s : State) : s.CueLevel s.schedulerWork :=
  (State.cueLevel_takeAllCueDone s).trans (State.CueLevel.foldl State.cueLevel_offer _ _)

theorem State.cueLevel_abandonCue (i : Slot) (s : State) (k : Nat) : s.CueLevel (State.abandonCue i s k) := by
  unfold State.abandonCue
  split
  · exact .refl s
  · split
    · exact (State.cueLevel_setCueState _ _ _ _).trans (State.cueLevel_setFiring _ _)
    · dsimp only
      split
      · exact (State.cueLevel_setCueState _ _ _ _).trans (State.cueLevel_withdraw _ _ _ _)
      · exact State.cueLevel_setCueState _ _ _ _
    · exact .refl s

theorem State.cueLevel_abandon (s : State) (i : Slot) (w : Cue → Bool) : s.CueLevel (s.abandon i w) :=
  State.CueLevel.foldl (State.cueLevel_abandonCue i) _ s

theorem State.cueLevel_abandonPhase (s : State) (i : Slot) (ph : Phase) : s.CueLevel (s.abandonPhase i ph) :=
  State.cueLevel_abandon s i _

theorem State.cueLevel_abandonAll (s : State) (i : Slot) : s.CueLevel (s.abandonAll i) := State.cueLevel_abandon s i _

end Sys2Proof.Machine
end

