-- ==== Sys2Proof/Laws/Channels.lean ====
section
/-! SUPPORT. What the channel operations do to the channel records and the links: they reach one channel, and keep every record
and link within its ranges. -/

namespace Sys2Proof.Machine

/-! ### Links -/

/-- A sending side within R164: at most 64 frames wait, and none behind an idle link. -/
structure Transmit.Ok (x : Transmit) : Prop where
  length : x.queue.length ≤ 64
  idle : x.sending = none → x.queue = []

theorem Transmit.Ok.push {x : Transmit} (h : x.Ok) (f : OutFrame) : (x.push f).Ok := by
  unfold Transmit.push
  split
  · next e => exact ⟨h.length, by simp⟩
  · split
    · next e => exact ⟨by simpa [Config.maxTransmit] using e, by simp_all⟩
    · exact h

theorem Transmit.Ok.sent {x : Transmit} (h : x.Ok) : x.sent.Ok :=
  ⟨by have := h.length; simp [Transmit.sent]; omega, fun e => by simp [Transmit.sent] at e; simp [Transmit.sent, e]⟩

/-- Every link's sending side is within R164. -/
def State.LinksOk (s : State) : Prop := ∀ k, (s.tx k).Ok

theorem State.LinksOk.emit {s : State} (h : s.LinksOk) (k : Link) (f : OutFrame) : (s.emit k f).LinksOk := by
  intro j
  by_cases e : j = k
  · subst e; simpa using (h j).push f
  · rw [State.emit_tx_ne _ _ _ e]; exact h j

theorem State.LinksOk.setTx {s : State} (h : s.LinksOk) (k : Link) {x : Transmit} (hx : x.Ok) : (s.setTx k x).LinksOk := by
  intro j
  by_cases e : j = k
  · subst e; simpa using hx
  · rw [State.setTx_tx_ne _ _ _ e]; exact h j

/-! ### Operations that reach one channel -/

/-- Only channel `c` may differ, and the links stay within R164. -/
structure State.OnChannel (c : Chan) (s t : State) : Prop where
  others : ∀ d, d ≠ c → t.channel d = s.channel d
  links : s.LinksOk → t.LinksOk

theorem State.OnChannel.refl (c : Chan) (s : State) : State.OnChannel c s s := ⟨fun _ _ => rfl, id⟩

theorem State.OnChannel.trans {c : Chan} {s t u : State} (a : State.OnChannel c s t) (b : State.OnChannel c t u) :
    State.OnChannel c s u :=
  ⟨fun d h => (b.others d h).trans (a.others d h), fun h => b.links (a.links h)⟩

theorem State.onChannel_setChannel (s : State) (c : Chan) (x : Channel) : State.OnChannel c s (s.setChannel c x) :=
  ⟨fun _ h => State.setChannel_channel_ne _ _ _ h, fun h k => by simpa using h k⟩

/-- An operation that leaves every channel and link. -/
theorem State.onChannel_of_same {c : Chan} {s t : State} (hc : ∀ d, t.channel d = s.channel d) (hk : ∀ k, t.tx k = s.tx k) :
    State.OnChannel c s t := ⟨fun d _ => hc d, fun h k => by rw [hk]; exact h k⟩

@[simp] theorem State.modifyCue_channel (s : State) (i : Slot) (k : Nat) (f : Cue → Cue) (d : Chan) :
    (s.modifyCue i k f).channel d = s.channel d := rfl
@[simp] theorem State.modifyCue_tx (s : State) (i : Slot) (k : Nat) (f : Cue → Cue) (j : Link) :
    (s.modifyCue i k f).tx j = s.tx j := by simp [State.modifyCue]
@[simp] theorem State.setCueState_channel (s : State) (i : Slot) (k : Nat) (x : CueState) (d : Chan) :
    (s.setCueState i k x).channel d = s.channel d := rfl
@[simp] theorem State.setCueState_tx (s : State) (i : Slot) (k : Nat) (x : CueState) (j : Link) :
    (s.setCueState i k x).tx j = s.tx j := by simp [State.setCueState]
@[simp] theorem State.failCue_channel (s : State) (i : Slot) (k : Nat) (x : FailCause) (d : Chan) :
    (s.failCue i k x).channel d = s.channel d := rfl
@[simp] theorem State.failCue_tx (s : State) (i : Slot) (k : Nat) (x : FailCause) (j : Link) :
    (s.failCue i k x).tx j = s.tx j := by simp [State.failCue]
@[simp] theorem State.handCue_channel (s : State) (d : CueDone) (c : Chan) : (s.handCue d).channel c = s.channel c := rfl
@[simp] theorem State.handCue_tx (s : State) (d : CueDone) (j : Link) : (s.handCue d).tx j = s.tx j := by simp [State.handCue]

@[simp] theorem State.failQueued_channel (s : State) (l : List Queued) (x : FailCause) (d : Chan) :
    (s.failQueued l x).channel d = s.channel d := by
  unfold State.failQueued
  induction l generalizing s with
  | nil => rfl
  | cons q l ih => rw [List.foldl_cons, ih]; rfl

@[simp] theorem State.failQueued_tx (s : State) (l : List Queued) (x : FailCause) (j : Link) :
    (s.failQueued l x).tx j = s.tx j := by
  unfold State.failQueued
  induction l generalizing s with
  | nil => rfl
  | cons q l ih => rw [List.foldl_cons, ih]; simp

theorem State.onChannel_send (s : State) (c : Chan) (q : Queued) (rest : List Queued) :
    State.OnChannel c s (s.send c q rest) := by
  refine ⟨fun d h => ?_, fun h => ?_⟩
  · simp [State.send, State.setChannel_channel, h]
  · exact State.LinksOk.emit (fun k => by simpa using h k) _ _

/-- The record of a channel after a send (R121 steps 1 to 4). -/
@[simp] theorem State.send_channel_self (s : State) (c : Chan) (q : Queued) (rest : List Queued) :
    (s.send c q rest).channel c =
      { s.channel c with queue := rest, tag := (s.channel c).tag + 1
                         command := some (q.command ((s.channel c).tag + 1) s.sfc), state := .busy, begun := s.beginsEarly c } := by
  simp [State.send, State.beginsEarly]

theorem State.onChannel_emptySlot (s : State) (c : Chan) (o : CueOutcome) : State.OnChannel c s (s.emptySlot c o) := by
  unfold State.emptySlot
  split
  · exact .refl c s
  · exact (State.onChannel_setChannel s c _).trans (State.onChannel_of_same (fun _ => rfl) (fun k => by simp))

@[simp] theorem State.emptySlot_channel_self (s : State) (c : Chan) (o : CueOutcome) :
    (s.emptySlot c o).channel c = { s.channel c with command := none } := by
  unfold State.emptySlot
  split
  · next h => rw [← h]
  · simp

theorem State.onChannel_rest (s : State) (c : Chan) (g : Nat) : State.OnChannel c s (s.rest c g) := by
  unfold State.rest
  split <;> exact State.onChannel_setChannel _ _ _

@[simp] theorem State.rest_channel_self (s : State) (c : Chan) (g : Nat) :
    (s.rest c g).channel c =
      (if g = 0 then { s.channel c with state := .ready } else { s.channel c with state := .guard, guard := g, begun := s.beginsEarly c }) := by
  unfold State.rest
  split <;> simp

theorem State.onChannel_grantChain (c : Chan) (n : Nat) (s : State) : State.OnChannel c s (State.grantChain c n s) := by
  induction n generalizing s with
  | zero => exact .refl c s
  | succ n ih =>
    rw [State.grantChain]
    split
    · split
      · exact .refl c s
      · next q rest _ =>
        dsimp only
        split
        · exact (((State.onChannel_send s c q rest).trans (State.onChannel_emptySlot _ _ _)).trans
            (State.onChannel_rest _ _ _)).trans (ih _)
        · exact State.onChannel_send s c q rest
    · exact .refl c s

/-- A channel released from its command is within its ranges. -/
theorem Channel.InRange.released {x : Channel} (h : x.InRange) (g : Nat) (m n : Bool) (hk : x.kind ≠ .none) :
    Channel.InRange (if g = 0 then { x with command := none, state := .ready, begun := m } else
      { x with command := none, state := .guard, guard := g, begun := n }) := by
  have h1 : x.queue.length ≤ 8 := h.queue
  split <;> constructor <;> simp_all [h.pollInterval, h.silentLimit, h.retryLow, h.retryHigh, h.silent]

/-- A channel filled by a grant is within its ranges. -/
theorem Channel.InRange.filled {x : Channel} (h : x.InRange) {q : Queued} {rest : List Queued} (hq : x.queue = q :: rest)
    (tag : BitVec 4) (k : Command) (m : Bool) :
    Channel.InRange { x with queue := rest, tag := tag, command := some k, state := .busy, begun := m } := by
  have h1 : rest.length ≤ 8 := by have := h.queue; rw [hq] at this; simp at this; omega
  have h2 : x.kind ≠ .none := fun e => by have := h.unserved e; rw [hq] at this; cases this
  constructor <;> simp_all [h.pollInterval, h.silentLimit, h.retryLow, h.retryHigh, h.silent]

theorem State.grantChain_inRange (c : Chan) (n : Nat) (s : State) (h : (s.channel c).InRange) :
    ((State.grantChain c n s).channel c).InRange := by
  induction n generalizing s with
  | zero => exact h
  | succ n ih =>
    rw [State.grantChain]
    split
    · split
      · exact h
      · next q rest hq =>
        have h2 := h.filled hq ((s.channel c).tag + 1) (q.command ((s.channel c).tag + 1) s.sfc) (s.beginsEarly c)
        dsimp only
        split
        · apply ih
          have hk : (s.channel c).kind ≠ .none := fun e => by have := h.unserved e; rw [hq] at this; cases this
          have := h2.released q.guard (s.beginsEarly c) (((s.send c q rest).emptySlot c .done).beginsEarly c) hk
          simpa using this
        · simpa using h2
    · exact h

theorem State.onChannel_grant (s : State) (c : Chan) : State.OnChannel c s (s.grant c) := State.onChannel_grantChain c _ s

theorem State.grant_inRange (s : State) (c : Chan) (h : (s.channel c).InRange) : ((s.grant c).channel c).InRange :=
  State.grantChain_inRange c _ s h

theorem State.onChannel_endCommand (s : State) (c : Chan) (o : CueOutcome) : State.OnChannel c s (s.endCommand c o) := by
  unfold State.endCommand
  split
  · exact .refl c s
  · exact ((State.onChannel_emptySlot _ _ _).trans (State.onChannel_rest _ _ _)).trans (State.onChannel_grant _ _)

theorem Channel.InRange.kind_ne {x : Channel} (h : x.InRange) {k : Command} (hc : x.command = some k) : x.kind ≠ .none := by
  intro e
  have h1 := h.slot.mp (by simp [hc])
  have h2 := h.offline.mp e
  rw [h1] at h2
  cases h2

theorem State.endCommand_inRange (s : State) (c : Chan) (o : CueOutcome) (h : (s.channel c).InRange) :
    ((s.endCommand c o).channel c).InRange := by
  unfold State.endCommand
  split
  · exact h
  · next k hk =>
    apply State.grant_inRange
    simpa using h.released k.guard (s.channel c).begun ((s.emptySlot c o).beginsEarly c) (h.kind_ne hk)

theorem State.onChannel_failQueue (s : State) (c : Chan) (x : FailCause) : State.OnChannel c s (s.failQueue c x) :=
  (State.onChannel_setChannel s c _).trans
    (State.onChannel_of_same (fun d => State.failQueued_channel _ _ _ d) (fun k => State.failQueued_tx _ _ _ k))

@[simp] theorem State.failQueue_channel_self (s : State) (c : Chan) (x : FailCause) :
    (s.failQueue c x).channel c = { s.channel c with queue := [] } := by
  simp [State.failQueue]

/-- A cue accepted into a queue is one more in it. -/
@[simp] theorem enqueue_length (q : Queued) (l : List Queued) : (enqueue q l).length = l.length + 1 := by
  induction l with
  | nil => rfl
  | cons x l ih => unfold enqueue; split <;> simp [ih]

/-- A cue accepted leaves the record within its ranges (R119, R120). -/
theorem Channel.InRange.accepted {x : Channel} (h : x.InRange) {a : Action} (ha : x.refuses a = none) (q : Queued) :
    Channel.InRange { x with queue := enqueue q x.queue } := by
  unfold Channel.refuses at ha
  split at ha
  · cases ha
  · split at ha
    · cases ha
    · split at ha
      · cases ha
      · split at ha
        · cases ha
        · next h1 h2 h3 h4 =>
          exact ⟨h.pollInterval, h.silentLimit, h.retryLow, h.retryHigh, by simp [Config.maxQueue] at h4 ⊢; omega,
            h.silent, h.slot, h.offline, fun e => absurd e h1, fun e1 e2 => absurd ⟨e1, e2⟩ h3⟩

/-- Every channel record and every link is within its ranges. -/
structure State.ChannelsOk (s : State) : Prop where
  channels : ∀ c, (s.channel c).InRange
  links : s.LinksOk

theorem State.ChannelsOk.on {s t : State} (h : s.ChannelsOk) {c : Chan} (o : State.OnChannel c s t)
    (hc : (t.channel c).InRange) : t.ChannelsOk :=
  ⟨fun d => by
    by_cases e : d = c
    · subst e; exact hc
    · rw [o.others d e]; exact h.channels d, o.links h.links⟩

/-- An operation that leaves every channel and link. -/
theorem State.ChannelsOk.same {s t : State} (h : s.ChannelsOk) (hc : ∀ d, t.channel d = s.channel d)
    (hk : ∀ k, t.tx k = s.tx k) : t.ChannelsOk :=
  ⟨fun d => by rw [hc]; exact h.channels d, fun k => by rw [hk]; exact h.links k⟩

theorem State.ChannelsOk.foldl {α : Type} {f : State → α → State} (hf : ∀ (s : State) x, s.ChannelsOk → (f s x).ChannelsOk)
    (l : List α) (s : State) (h : s.ChannelsOk) : (l.foldl f s).ChannelsOk := by
  induction l generalizing s with
  | nil => exact h
  | cons x l ih => exact ih _ (hf s x h)

theorem State.ChannelsOk.setChannel {s : State} (h : s.ChannelsOk) (c : Chan) {x : Channel} (hx : x.InRange) :
    (s.setChannel c x).ChannelsOk := h.on (State.onChannel_setChannel s c x) (by simpa using hx)

theorem State.ChannelsOk.grant {s : State} (h : s.ChannelsOk) (c : Chan) : (s.grant c).ChannelsOk :=
  h.on (State.onChannel_grant s c) (s.grant_inRange c (h.channels c))

theorem State.ChannelsOk.endCommand {s : State} (h : s.ChannelsOk) (c : Chan) (o : CueOutcome) : (s.endCommand c o).ChannelsOk :=
  h.on (State.onChannel_endCommand s c o) (s.endCommand_inRange c o (h.channels c))

theorem State.ChannelsOk.failCue {s : State} (h : s.ChannelsOk) (i : Slot) (k : Nat) (x : FailCause) :
    (s.failCue i k x).ChannelsOk := h.same (fun _ => rfl) (fun k => by simp)

theorem State.ChannelsOk.emit {s : State} (h : s.ChannelsOk) (k : Link) (f : OutFrame) : (s.emit k f).ChannelsOk :=
  ⟨fun d => by simpa using h.channels d, h.links.emit k f⟩

theorem State.ChannelsOk.offer {s : State} (h : s.ChannelsOk) (e : Firing) : (s.offer e).ChannelsOk := by
  unfold State.offer
  have h0 : (s.setFiring (removeFiring e.slot e.index s.firing)).ChannelsOk := h.same (fun _ => rfl) (fun k => by simp)
  split
  · exact h0
  · split
    · exact h0
    · next r _ =>
      dsimp only
      split
      · exact h0.failCue _ _ _
      · next ha =>
        apply State.ChannelsOk.grant
        have h1 : ((s.setFiring (removeFiring e.slot e.index s.firing)).setCueState e.slot e.index .queued).ChannelsOk :=
          h0.same (fun _ => rfl) (fun k => by simp)
        exact h1.setChannel _ ((h.channels _).accepted ha _)

theorem State.ChannelsOk.withdraw {s : State} (h : s.ChannelsOk) (c : Chan) (i : Slot) (k : Nat) :
    (s.withdraw c i k).ChannelsOk := by
  apply State.ChannelsOk.grant
  apply h.setChannel
  have hc := h.channels c
  refine ⟨hc.pollInterval, hc.silentLimit, hc.retryLow, hc.retryHigh, Nat.le_trans (List.length_filter_le _ _) hc.queue, hc.silent,
    hc.slot, hc.offline, fun e => ?_, fun e1 e2 => ?_⟩
  · simp [hc.unserved e]
  · simp [hc.latched e1 e2]

/-! ### Faults and frame work -/

theorem State.onChannel_noteFault (s : State) (c : Chan) (x : FaultCause) : State.OnChannel c s (s.noteFault c x) := by
  unfold State.noteFault
  dsimp only
  split
  · exact (State.onChannel_setChannel _ _ _).trans (State.onChannel_of_same (fun _ => rfl) (fun k => by simp))
  · exact State.onChannel_setChannel _ _ _

@[simp] theorem State.noteFault_channel_self (s : State) (c : Chan) (x : FaultCause) :
    (s.noteFault c x).channel c =
      (if (s.channel c).faultMode.reports then { s.channel c with silent := 0, faultFlag := true, faultCause := some x }
       else { s.channel c with silent := 0 }) := by
  unfold State.noteFault
  dsimp only
  split <;> simp

theorem State.onChannel_dropCommand (s : State) (c : Chan) (x : FaultCause) : State.OnChannel c s (s.dropCommand c x) :=
  (State.onChannel_emptySlot _ _ _).trans (State.onChannel_setChannel _ _ _)

@[simp] theorem State.dropCommand_channel_self (s : State) (c : Chan) (x : FaultCause) :
    (s.dropCommand c x).channel c = { s.channel c with command := none, guard := 0 } := by
  simp [State.dropCommand]

theorem State.onChannel_enterFault (s : State) (c : Chan) (x : FaultCause) : State.OnChannel c s (s.enterFault c x) := by
  unfold State.enterFault
  split
  · exact .refl c s
  · dsimp only
    have h1 := State.onChannel_noteFault s c x
    split
    · exact ((h1.trans (State.onChannel_dropCommand _ _ _)).trans (State.onChannel_setChannel _ _ _)).trans
        (State.onChannel_failQueue _ _ _)
    · exact (h1.trans (State.onChannel_dropCommand _ _ _)).trans (State.onChannel_setChannel _ _ _)
    · exact h1
    · exact h1

/-- A fault entry on a channel in service keeps its record within its ranges (R129 to R133). -/
theorem State.ChannelsOk.enterFault {s : State} (h : s.ChannelsOk) (c : Chan) (x : FaultCause)
    (hs : (s.channel c).state ≠ .offline) : (s.enterFault c x).ChannelsOk := by
  refine h.on (State.onChannel_enterFault s c x) ?_
  have hc := h.channels c
  have hk : (s.channel c).kind ≠ .none := fun e => hs (hc.offline.mp e)
  unfold State.enterFault
  split
  · exact hc
  · dsimp only
    split
    · next hm =>
      simp only [State.failQueue_channel_self, State.setChannel_channel_self, State.dropCommand_channel_self,
        State.noteFault_channel_self, hm, FaultMode.reports, if_true]
      constructor <;> simp_all [hc.pollInterval, hc.silentLimit, hc.retryLow, hc.retryHigh]
    · next hm =>
      have hq := hc.queue
      simp only [State.setChannel_channel_self, State.dropCommand_channel_self,
        State.noteFault_channel_self, hm, FaultMode.reports, if_true]
      constructor <;> simp_all [hc.pollInterval, hc.silentLimit, hc.retryLow, hc.retryHigh]
    · next hm =>
      rw [State.noteFault_channel_self]
      split <;> exact ⟨hc.pollInterval, hc.silentLimit, hc.retryLow, hc.retryHigh, hc.queue, by simp, hc.slot, hc.offline,
        hc.unserved, hc.latched⟩
    · next hm =>
      rw [State.noteFault_channel_self]
      split <;> exact ⟨hc.pollInterval, hc.silentLimit, hc.retryLow, hc.retryHigh, hc.queue, by simp, hc.slot, hc.offline,
        hc.unserved, hc.latched⟩

/-- A channel that is not OFFLINE stays so when its command ends. -/
theorem State.endCommand_offline (s : State) (c : Chan) (o : CueOutcome) (h : s.ChannelsOk)
    (hs : (s.channel c).state ≠ .offline) : ((s.endCommand c o).channel c).state ≠ .offline := by
  have hk : ((s.endCommand c o).channel c).kind = (s.channel c).kind := by
    unfold State.endCommand
    split
    · rfl
    · have grantKind : ∀ n (u : State), ((State.grantChain c n u).channel c).kind = (u.channel c).kind := by
        intro n
        induction n with
        | zero => intro u; rfl
        | succ n ih =>
          intro u
          rw [State.grantChain]
          split
          · split
            · rfl
            · dsimp only
              split
              · rw [ih]; simp only [State.rest_channel_self]; split <;> simp
              · simp
          · rfl
      rw [State.grant, grantKind]
      simp only [State.rest_channel_self]
      split <;> simp
  intro e
  have h2 := (s.endCommand_inRange c o (h.channels c)).offline.mpr e
  rw [hk] at h2
  exact hs ((h.channels c).offline.mp h2)

theorem State.ChannelsOk.timeOut {s : State} (h : s.ChannelsOk) (c : Chan) (hs : (s.channel c).state ≠ .offline) :
    (s.timeOut c).ChannelsOk := by
  unfold State.timeOut
  split
  · exact h.enterFault c _ hs
  · exact (h.endCommand c _).enterFault c _ (s.endCommand_offline c _ h hs)

theorem State.ChannelsOk.failQueued {s : State} (h : s.ChannelsOk) (l : List Queued) (x : FailCause) :
    (s.failQueued l x).ChannelsOk := State.ChannelsOk.foldl (fun _ _ h => h.failCue _ _ _) l s h

theorem State.ChannelsOk.ageQueue {s : State} (h : s.ChannelsOk) (c : Chan) : (s.ageQueue c).ChannelsOk := by
  refine State.ChannelsOk.failQueued (h.setChannel c ?_) _ _
  have hc := h.channels c
  refine ⟨hc.pollInterval, hc.silentLimit, hc.retryLow, hc.retryHigh, Nat.le_trans (List.length_filter_le _ _) hc.queue, hc.silent,
    hc.slot, hc.offline, fun e => ?_, fun e1 e2 => ?_⟩
  · simp [hc.unserved e]
  · simp [hc.latched e1 e2]

theorem State.ChannelsOk.beginWork {s : State} (h : s.ChannelsOk) (c : Chan) : (s.beginWork c).ChannelsOk := by
  have hc := h.channels c
  exact h.setChannel c
    ⟨hc.pollInterval, hc.silentLimit, hc.retryLow, hc.retryHigh, hc.queue, hc.silent, hc.slot, hc.offline, hc.unserved, hc.latched⟩

theorem State.ChannelsOk.slotWork {s : State} (h : s.ChannelsOk) (c : Chan) (b : Bool) : (s.slotWork c b).ChannelsOk := by
  unfold State.slotWork
  split
  · next hr =>
    have hb := hr.2
    split
    · exact h
    · next k hk =>
      have h1 : (s.setChannel c { s.channel c with command := some k.tick }).ChannelsOk := by
        apply h.setChannel
        have hc := h.channels c
        exact ⟨hc.pollInterval, hc.silentLimit, hc.retryLow, hc.retryHigh, hc.queue, hc.silent, by simp [hb], hc.offline, hc.unserved, hc.latched⟩
      dsimp only
      split
      · exact h1.endCommand c _
      · split
        · exact h1.timeOut c (by simp [hb])
        · exact h1
  · exact h

theorem State.ChannelsOk.guardWork {s : State} (h : s.ChannelsOk) (c : Chan) (b : Bool) : (s.guardWork c b).ChannelsOk := by
  unfold State.guardWork
  dsimp only
  split
  · next hb =>
    apply h.setChannel
    have hc := h.channels c
    have h1 := hc.slot
    have h2 := hc.offline
    have h3 := hc.queue
    have h4 := hc.unserved
    rw [hb.2] at h1 h2
    split <;> constructor <;> simp_all [hc.pollInterval, hc.silentLimit, hc.retryLow, hc.retryHigh, hc.silent]
  · exact h

theorem State.ChannelsOk.recoveryWork {s : State} (h : s.ChannelsOk) (c : Chan) (b : Bool) :
    (s.recoveryWork c b).ChannelsOk := by
  unfold State.recoveryWork
  dsimp only
  split
  · next hb =>
    apply h.setChannel
    have hc := h.channels c
    have h1 := hc.slot
    have h2 := hc.offline
    have h3 := hc.queue
    have h4 := hc.unserved
    rw [hb.2] at h1 h2
    split <;> constructor <;> simp_all [hc.pollInterval, hc.silentLimit, hc.retryLow, hc.retryHigh, hc.silent]
  · exact h

theorem State.ChannelsOk.silenceWork {s : State} (h : s.ChannelsOk) (c : Chan) : (s.silenceWork c).ChannelsOk := by
  unfold State.silenceWork
  dsimp only
  split
  · next hw =>
    have h1 : (s.setChannel c { s.channel c with silent := (s.channel c).nextSilent }).ChannelsOk := by
      apply h.setChannel
      have hc := h.channels c
      refine ⟨hc.pollInterval, hc.silentLimit, hc.retryLow, hc.retryHigh, hc.queue, ?_, hc.slot, hc.offline, hc.unserved, hc.latched⟩
      unfold Channel.nextSilent
      split
      · simp; omega
      · simp
    split
    · refine h1.enterFault c _ ?_
      simp only [State.setChannel_channel_self]
      intro e
      rw [e] at hw
      cases hw
    · exact h1
  · exact h

theorem State.ChannelsOk.pollWork {s : State} (h : s.ChannelsOk) (c : Chan) : (s.pollWork c).ChannelsOk := by
  have hc := h.channels c
  unfold State.pollWork
  dsimp only
  split
  · exact State.ChannelsOk.emit (h.setChannel c (x := { s.channel c with poll := 0 })
      ⟨hc.pollInterval, hc.silentLimit, hc.retryLow, hc.retryHigh, hc.queue, hc.silent, hc.slot, hc.offline, hc.unserved, hc.latched⟩) _ _
  · split
    · exact h.setChannel c
        ⟨hc.pollInterval, hc.silentLimit, hc.retryLow, hc.retryHigh, hc.queue, hc.silent, hc.slot, hc.offline, hc.unserved, hc.latched⟩
    · exact h

theorem State.ChannelsOk.afterGrantWork {s : State} (h : s.ChannelsOk) (c : Chan) : (s.afterGrantWork c).ChannelsOk :=
  (((((h.beginWork c).ageQueue c).slotWork c _).guardWork c _).recoveryWork c _).grant c

theorem State.ChannelsOk.channelWork {s : State} (h : s.ChannelsOk) (c : Chan) : (s.channelWork c).ChannelsOk := by
  unfold State.channelWork
  split
  · exact h.beginWork c
  · exact (h.beginWork c).ageQueue c
  · exact ((h.afterGrantWork c).silenceWork c).pollWork c

theorem State.ChannelsOk.hear {s : State} (h : s.ChannelsOk) (c : Chan) : (s.hear c).ChannelsOk := by
  have hc := h.channels c
  exact h.setChannel c
    ⟨hc.pollInterval, hc.silentLimit, hc.retryLow, hc.retryHigh, hc.queue, by simp, hc.slot, hc.offline, hc.unserved, hc.latched⟩

theorem State.ChannelsOk.takeAccept {s : State} (h : s.ChannelsOk) (c : Chan) (tag : Byte) : (s.takeAccept c tag).ChannelsOk := by
  unfold State.takeAccept
  split
  · split
    · exact h.hear c
    · exact (h.hear c).endCommand c _
  · exact h.hear c

theorem State.ChannelsOk.takeRefuse {s : State} (h : s.ChannelsOk) (c : Chan) (tag : Byte) : (s.takeRefuse c tag).ChannelsOk := by
  unfold State.takeRefuse
  split
  · exact (h.hear c).endCommand c _
  · exact h.hear c

theorem State.ChannelsOk.takeStatus {s : State} (h : s.ChannelsOk) (c : Chan) (v : Byte) (hs : (s.channel c).state ≠ .offline) :
    (s.takeStatus c v).ChannelsOk := by
  unfold State.takeStatus
  split
  · exact (h.hear c).enterFault c _ (by simpa [State.hear] using hs)
  · exact h.hear c

theorem State.ChannelsOk.clearChannel {s : State} (h : s.ChannelsOk) (c : Chan) : (s.clearChannel c).ChannelsOk := by
  have hc := h.channels c
  have h1 := hc.slot
  have h2 := hc.offline
  have h3 := hc.queue
  have h4 := hc.unserved
  unfold State.clearChannel
  dsimp only
  split
  · exact h
  · next e =>
    rw [e] at h1 h2
    refine State.ChannelsOk.grant (h.setChannel c ?_) c
    constructor <;> simp_all [hc.pollInterval, hc.silentLimit, hc.retryLow, hc.retryHigh]
  · next e =>
    rw [e] at h1 h2
    refine State.ChannelsOk.grant (h.setChannel c ?_) c
    constructor <;> simp_all [hc.pollInterval, hc.silentLimit, hc.retryLow, hc.retryHigh]
  · exact h.setChannel c
      ⟨hc.pollInterval, hc.silentLimit, hc.retryLow, hc.retryHigh, hc.queue, by simp, hc.slot, hc.offline, hc.unserved, hc.latched⟩

theorem State.ChannelsOk.clearAll {s : State} (h : s.ChannelsOk) : s.clearAll.ChannelsOk :=
  State.ChannelsOk.foldl (fun _ c h => h.clearChannel c) _ s h

theorem State.ChannelsOk.giveKind {s : State} (h : s.ChannelsOk) (c : Chan) (k : ChannelKind) : (s.giveKind c k).ChannelsOk := by
  have hc := h.channels c
  unfold State.giveKind
  split
  · split
    · next e =>
      have e2 := hc.offline.mpr e
      apply h.setChannel
      rw [← e2]
      exact hc
    · dsimp only
      refine h.on (((State.onChannel_emptySlot _ _ _).trans (State.onChannel_failQueue _ _ _)).trans
        (State.onChannel_setChannel _ _ _)) ?_
      simp only [State.setChannel_channel_self, State.failQueue_channel_self, State.emptySlot_channel_self]
      constructor <;> simp_all [hc.pollInterval, hc.silentLimit, hc.retryLow, hc.retryHigh]
  · next hk =>
    split
    · next e =>
      have h1 := hc.slot
      rw [e] at h1
      have h5 := hc.unserved (hc.offline.mpr e)
      apply h.setChannel
      constructor <;> simp_all [hc.pollInterval, hc.silentLimit, hc.retryLow, hc.retryHigh]
    · next e =>
      apply h.setChannel
      exact ⟨hc.pollInterval, hc.silentLimit, hc.retryLow, hc.retryHigh, hc.queue, hc.silent, hc.slot,
        ⟨fun x => absurd x hk, fun x => absurd x e⟩, fun x => absurd x hk, hc.latched⟩

theorem State.ChannelsOk.giveFaultMode {s : State} (h : s.ChannelsOk) (c : Chan) (m : FaultMode) :
    (s.giveFaultMode c m).ChannelsOk := by
  have hc := h.channels c
  unfold State.giveFaultMode
  dsimp only
  split
  · refine h.on ((State.onChannel_setChannel _ _ _).trans (State.onChannel_failQueue _ _ _)) ?_
    simp only [State.failQueue_channel_self, State.setChannel_channel_self]
    exact ⟨hc.pollInterval, hc.silentLimit, hc.retryLow, hc.retryHigh, by simp, hc.silent, hc.slot, hc.offline, by simp, by simp⟩
  · next e =>
    apply h.setChannel
    exact ⟨hc.pollInterval, hc.silentLimit, hc.retryLow, hc.retryHigh, hc.queue, hc.silent, hc.slot, hc.offline, hc.unserved,
      fun e1 e2 => absurd ⟨e2, e1⟩ e⟩

/-! ### The cue scheduler -/

theorem State.ChannelsOk.armCue {ph : Phase} {b : Frame} {i : Slot} {s : State} (h : s.ChannelsOk) (k : Nat) :
    (State.armCue ph b i s k).ChannelsOk := by
  unfold State.armCue
  split
  · exact h
  · split
    · split
      · exact h.failCue _ _ _
      · exact h.same (fun _ => rfl) (fun k => by simp)
    · exact h

theorem State.ChannelsOk.armPhase {s : State} (h : s.ChannelsOk) (ph : Phase) (b : Frame) (i : Slot) :
    (s.armPhase ph b i).ChannelsOk :=
  State.ChannelsOk.foldl (fun _ e h => h.offer e) _ _ (State.ChannelsOk.foldl (fun _ k h => h.armCue k) _ s h)

theorem State.ChannelsOk.takeCueDone {s : State} (h : s.ChannelsOk) (d : CueDone) : (s.takeCueDone d).ChannelsOk := by
  unfold State.takeCueDone
  split
  · split
    · exact h.same (fun _ => rfl) (fun k => by simp)
    · exact h.failCue _ _ _
  · exact h

theorem State.ChannelsOk.takeAllCueDone {s : State} (h : s.ChannelsOk) : s.takeAllCueDone.ChannelsOk :=
  State.ChannelsOk.foldl (fun _ d h => h.takeCueDone d) _ _ (h.same (fun _ => rfl) (fun k => by simp))

theorem State.ChannelsOk.schedulerWork {s : State} (h : s.ChannelsOk) : s.schedulerWork.ChannelsOk :=
  State.ChannelsOk.foldl (fun _ e h => h.offer e) _ _ h.takeAllCueDone

theorem State.ChannelsOk.abandonCue {i : Slot} {s : State} (h : s.ChannelsOk) (k : Nat) : (State.abandonCue i s k).ChannelsOk := by
  unfold State.abandonCue
  split
  · exact h
  · split
    · exact h.same (fun _ => rfl) (fun k => by simp)
    · dsimp only
      have h1 : (s.setCueState i k .abandoned).ChannelsOk := h.same (fun _ => rfl) (fun k => by simp)
      split
      · exact h1.withdraw _ _ _
      · exact h1
    · exact h

theorem State.ChannelsOk.abandon {s : State} (h : s.ChannelsOk) (i : Slot) (w : Cue → Bool) : (s.abandon i w).ChannelsOk :=
  State.ChannelsOk.foldl (fun _ k h => h.abandonCue k) _ s h

end Sys2Proof.Machine
end

