-- ==== Sys2Proof/Laws/Watch.lean ====
section
/-! SUPPORT. What the sequencers look at: what a frame event gives them, what an edit or a track reset leaves of it, and what the
hard-in watch sees (R14, R41, R42, R51, R52). -/

namespace Sys2Proof.Machine

/-! ### What is left of a look -/

theorem Look.Keeps.refl (x : Look) : x.Keeps x := ⟨rfl, rfl, id, .refl _⟩

theorem Look.Keeps.trans {x y z : Look} (a : x.Keeps y) (b : y.Keeps z) : x.Keeps z :=
  ⟨b.takeDelay.trans a.takeDelay, b.hostHold.trans a.hostHold, fun h => a.auto (b.auto h), b.hardIns.trans a.hardIns⟩

/-- The watch that an edit finds, as an update of the state. -/
@[simp] theorem State.keepWatch_eq (s : State) : s.keepWatch = s.setLooks ⟨s.lookKept .a, s.lookKept .b⟩ := rfl

@[simp] theorem State.keepWatch_look (s : State) (t : Track) : s.keepWatch.look t = s.lookKept t := by cases t <;> rfl

theorem State.lookKept_keeps (s : State) (t : Track) : (s.look t).Keeps (s.lookKept t) :=
  ⟨rfl, rfl, fun h => (Bool.and_eq_true_iff.mp h).1, List.filter_sublist⟩

theorem State.keepWatch_keeps (s : State) (t : Track) : (s.look t).Keeps (s.keepWatch.look t) := by
  rw [State.keepWatch_look]; exact s.lookKept_keeps t

/-- The candidates do not depend on what the sequencers look at. -/
@[simp] theorem State.setLooks_candidates (s : State) (p : PerTrack Look) (t : Track) :
    (s.setLooks p).candidates t = s.candidates t := rfl

@[simp] theorem State.setLooks_lookNow (s : State) (p : PerTrack Look) (t : Track) : (s.setLooks p).lookNow t = s.lookNow t := rfl

/-! ### The hard-in watch -/

theorem State.mem_lookNow {s : State} {t : Track} {i : Slot} {h : Frame} :
    ⟨i, h⟩ ∈ (s.lookNow t).hardIns ↔ i ∈ s.candidates t ∧ (s.slot i).fields.hardIn = some h := by
  simp [State.lookNow]

/-- What a frame event gives a sequencer to look at (R41, R42, R51, R52). -/
theorem State.lookNow_looksAt (s : State) (t : Track) : s.LooksAt t (s.lookNow t) where
  takeDelay := rfl
  hostHold := rfl
  auto := by
    simp only [State.lookNow, State.airsAuto]
    cases (s.track t).onAir <;> simp
  hardIns := fun _ _ => State.mem_lookNow

/-- The watch sees an item by a hard-in that the frame event gave it. -/
theorem State.watchedHardIn_mem {s : State} {t : Track} {i : Slot} {h : Frame} (e : s.watchedHardIn t i = some h) :
    ⟨i, h⟩ ∈ (s.look t).hardIns := by
  simp only [State.watchedHardIn, Option.map_eq_some_iff] at e
  obtain ⟨w, hw, rfl⟩ := e
  have hi := List.find?_some hw
  simp only [decide_eq_true_eq] at hi
  subst hi
  exact List.mem_of_find?_eq_some hw

/-- An item of the watch that is due is seen by a hard-in that, less the take delay looked at, is reached (R52). -/
theorem State.hardInDue_iff {s : State} {t : Track} {i : Slot} :
    s.hardInDue t i = true ↔ ∃ h, s.watchedHardIn t i = some h ∧ s.reachedAtWork (frameSub h (s.look t).takeDelay) = true := by
  unfold State.hardInDue
  cases s.watchedHardIn t i <;> simp

/-- An edit leaves an item that is READY or eligible watched as it was (R14). -/
theorem State.keepWatch_watched {s : State} {t : Track} {i : Slot} (h : i ∈ s.candidates t) :
    s.keepWatch.watchedHardIn t i = s.watchedHardIn t i := by
  simp only [State.watchedHardIn, State.keepWatch_look, State.lookKept, List.find?_filter]
  congr 2
  funext w
  by_cases e : w.slot = i
  · simp [e, h]
  · simp [e]

/-- An edit finds no other item watched, so that one it makes eligible is watched from the next frame event (R52). -/
theorem State.keepWatch_unwatched {s : State} {t : Track} {i : Slot} (h : i ∉ s.candidates t) :
    s.keepWatch.watchedHardIn t i = none := by
  simp only [State.watchedHardIn, State.keepWatch_look, State.lookKept, List.find?_filter, Option.map_eq_none_iff,
    List.find?_eq_none]
  intro w _ e
  simp only [List.contains_iff_mem, decide_eq_true_eq] at e
  exact h (e.2 ▸ e.1)

/-- With the SFC as the frame event left it, a frame value is reached for frame work when it is reached (R63). -/
theorem State.reachedAtWork_of_counted {s : State} (h : s.counted = s.sfc) (a : Frame) : s.reachedAtWork a = s.reached a := by
  simp [State.reachedAtWork, State.reached, h]

end Sys2Proof.Machine
end

