-- ==== Sys2Proof/Laws/Sequencing.lean ====
section
/-! SUPPORT. What READY choices, skips and the stages of a take keep, and what edits, group applies, takes and track resets
keep. One lemma for each operation. -/

namespace Sys2Proof.Machine

/-! ### Tracks -/

/-- The configuration kept, and the lockout count kept, restarted or cleared. -/
structure TrackRec.Kept (x y : TrackRec) : Prop where
  takeDelay : y.takeDelay = x.takeDelay
  lockout : y.lockout = x.lockout
  band : y.band = x.band
  hysteresis : y.hysteresis = x.hysteresis
  hardOut : y.hardOut = x.hardOut
  hostHold : y.hostHold = x.hostHold
  lockoutCount : y.lockoutCount ≤ max x.lockoutCount x.lockout

theorem TrackRec.Kept.refl (x : TrackRec) : x.Kept x := ⟨rfl, rfl, rfl, rfl, rfl, rfl, Nat.le_max_left _ _⟩

theorem TrackRec.Kept.trans {x y z : TrackRec} (a : x.Kept y) (b : y.Kept z) : x.Kept z :=
  ⟨b.takeDelay.trans a.takeDelay, b.lockout.trans a.lockout, b.band.trans a.band, b.hysteresis.trans a.hysteresis,
   b.hardOut.trans a.hardOut, b.hostHold.trans a.hostHold, by
    have h1 := a.lockoutCount; have h2 := b.lockoutCount; have h3 := a.lockout; omega⟩

theorem TrackRec.Kept.inRange {x y : TrackRec} (h : x.Kept y) (hx : x.InRange) : y.InRange := by
  have h1 := h.lockoutCount
  have h2 := hx.lockoutCount
  exact ⟨by rw [h.takeDelay]; exact hx.takeDelay, by rw [h.lockout]; exact hx.lockout, by rw [h.band]; exact hx.band,
    by rw [h.band, h.hysteresis]; exact hx.hysteresis, by rw [h.lockout]; omega⟩

/-! ### What every running operation keeps -/

/-- What an edit, a group's apply, a take, a skip or a track reset keeps; a take alone may mark its track. -/
structure State.RunLevel (s t : State) : Prop where
  aside : ((s.setCut t.cut).setLooks t.looks).Aside t
  looks : ∀ u, (s.look u).Keeps (t.look u)
  flags : s.flags.Within t.flags
  buffer : t.buffer = s.buffer
  sdoStatus : t.sdoStatus = s.sdoStatus
  sdo : t.sdo = s.sdo
  config : ∀ u, (s.track u).Kept (t.track u)
  channels : s.ChannelsOk → t.ChannelsOk

theorem State.RunLevel.refl (s : State) : s.RunLevel s := ⟨(State.Aside.refl s).apart, fun _ => .refl _, .refl _, rfl, rfl, rfl, fun _ => .refl _, id⟩

theorem State.RunLevel.trans {s t u : State} (a : s.RunLevel t) (b : t.RunLevel u) : s.RunLevel u :=
  ⟨.apart_trans a.aside b.aside, fun v => (a.looks v).trans (b.looks v), a.flags.trans b.flags, b.buffer.trans a.buffer, b.sdoStatus.trans a.sdoStatus, b.sdo.trans a.sdo,
   fun v => (a.config v).trans (b.config v), fun h => b.channels (a.channels h)⟩

theorem State.RunLevel.foldl {α : Type} {f : State → α → State} (h : ∀ (s : State) x, s.RunLevel (f s x)) (l : List α) (s : State) :
    s.RunLevel (l.foldl f s) := by
  induction l generalizing s with
  | nil => exact .refl s
  | cons x l ih => exact (h s x).trans (ih _)

/-- What a record keeps through a READY choice, a skip or the stages of a take that apply no group. -/
structure Item.Standing (x y : Item) : Prop where
  condition : y.condition = x.condition
  track : y.track = x.track
  fields : y.fields = x.fields
  specs : y.cues.map Cue.spec = x.cues.map Cue.spec

theorem Item.Standing.refl (x : Item) : x.Standing x := ⟨rfl, rfl, rfl, rfl⟩

theorem Item.Standing.trans {x y z : Item} (a : x.Standing y) (b : y.Standing z) : x.Standing z :=
  ⟨b.condition.trans a.condition, b.track.trans a.track, b.fields.trans a.fields, b.specs.trans a.specs⟩

theorem Item.Kept.standing {x y : Item} (h : x.Kept y) : x.Standing y := ⟨h.condition, h.track, h.fields, h.specs⟩

/-- What a READY choice, a skip or the stages of a take that apply no group keep: the orders, the groups, the over/under
status, and of each item its condition, track, fields and cue list as the host gave them. -/
structure State.SequencerLevel (s t : State) : Prop where
  run : s.RunLevel t
  orders : t.orders = s.orders
  groups : t.groups = s.groups
  armed : t.armed = s.armed
  status : t.status = s.status
  items : ∀ i, (s.slot i).Standing (t.slot i)

theorem State.SequencerLevel.refl (s : State) : s.SequencerLevel s := ⟨.refl s, rfl, rfl, rfl, rfl, fun _ => .refl _⟩

theorem State.SequencerLevel.trans {s t u : State} (a : s.SequencerLevel t) (b : t.SequencerLevel u) : s.SequencerLevel u :=
  ⟨a.run.trans b.run, b.orders.trans a.orders, b.groups.trans a.groups, b.armed.trans a.armed, b.status.trans a.status,
   fun i => (a.items i).trans (b.items i)⟩

theorem State.SequencerLevel.foldl {α : Type} {f : State → α → State} (h : ∀ (s : State) x, s.SequencerLevel (f s x)) (l : List α)
    (s : State) : s.SequencerLevel (l.foldl f s) := by
  induction l generalizing s with
  | nil => exact .refl s
  | cons x l ih => exact (h s x).trans (ih _)

theorem State.SequencerLevel.order {s t : State} (h : s.SequencerLevel t) (u : Track) : t.order u = s.order u := by
  simp [State.order, h.orders]

theorem State.SequencerLevel.group {s t : State} (h : s.SequencerLevel t) (g : GroupNo) : t.group g = s.group g := by
  simp [State.group, h.groups]

theorem State.CueLevel.sequencer {s t : State} (h : s.CueLevel t) (hc : s.ChannelsOk → t.ChannelsOk) : s.SequencerLevel t :=
  ⟨⟨h.aside.apart, fun u => by rw [State.look, State.look, h.aside.looks]; exact .refl _, h.flags, h.buffer, h.sdoStatus, h.sdo, fun u => by rw [h.track u]; exact .refl _, hc⟩,
   h.orders, h.groups, h.armed, h.status, fun i => (h.items i).standing⟩

theorem State.sequencer_setSlot {s : State} {i : Slot} {x : Item} (h : (s.slot i).Standing x) : s.SequencerLevel (s.setSlot i x) := by
  refine ⟨⟨by constructor <;> rfl, fun _ => .refl _, .refl _, rfl, rfl, rfl, fun _ => .refl _,
    fun h => h.same (fun _ => rfl) (fun k => by simp)⟩, rfl, rfl, rfl, rfl, fun j => ?_⟩
  rw [State.setSlot_slot]
  split
  · next e => subst e; exact h
  · exact .refl _

theorem State.sequencer_setTrack {s : State} {u : Track} {x : TrackRec} (h : (s.track u).Kept x) :
    s.SequencerLevel (s.setTrack u x) := by
  refine ⟨⟨by constructor <;> rfl, fun _ => .refl _, .refl _, rfl, rfl, rfl, fun v => ?_,
    fun h => h.same (fun _ => rfl) (fun k => by simp)⟩, rfl, rfl, rfl, rfl, fun _ => .refl _⟩
  rw [State.setTrack_track]
  split
  · next e => subst e; exact h
  · exact .refl _

theorem State.sequencer_setReadsDone (s : State) (l : List ReadDone) : s.SequencerLevel (s.setReadsDone l) :=
  ⟨⟨by constructor <;> rfl, fun _ => .refl _, .refl _, rfl, rfl, rfl, fun _ => .refl _, fun h => h.same (fun _ => rfl) (fun k => by simp)⟩,
    rfl, rfl, rfl, rfl, fun _ => .refl _⟩

theorem State.sequencer_raise (s : State) (e : Event) : s.SequencerLevel (s.raise e) :=
  (State.cueLevel_raise s e).sequencer (fun h => h.same (fun _ => rfl) (fun k => by simp))

theorem State.sequencer_emitPrompter (s : State) (f : OutFrame) : s.SequencerLevel (s.emit .prompter f) :=
  ⟨⟨by constructor <;> rfl, fun _ => .refl _, .refl _, rfl, rfl, rfl, fun _ => .refl _, fun h => h.emit _ _⟩, rfl, rfl, rfl, rfl, fun _ => .refl _⟩

theorem State.sequencer_armPhase (s : State) (ph : Phase) (b : Frame) (i : Slot) : s.SequencerLevel (s.armPhase ph b i) :=
  (State.cueLevel_armPhase s ph b i).sequencer (fun h => h.armPhase ph b i)

theorem State.sequencer_abandon (s : State) (i : Slot) (w : Cue → Bool) : s.SequencerLevel (s.abandon i w) :=
  (State.cueLevel_abandon s i w).sequencer (fun h => h.abandon i w)

theorem State.sequencer_abandonPhase (s : State) (i : Slot) (ph : Phase) : s.SequencerLevel (s.abandonPhase i ph) :=
  State.sequencer_abandon s i _

theorem State.sequencer_abandonAll (s : State) (i : Slot) : s.SequencerLevel (s.abandonAll i) := State.sequencer_abandon s i _

theorem State.sequencer_emitScript (s : State) (x : Option Word32) (f : Word32 → OutFrame) : s.SequencerLevel (s.emitScript x f) := by
  unfold State.emitScript
  split
  · exact State.sequencer_emitPrompter _ _
  · exact .refl s

/-- Cues set PENDING keep what the host gave. -/
theorem Item.pendCues_standing (x : Item) (w : Cue → Bool) : x.Standing (x.pendCues w) := by
  refine ⟨rfl, rfl, rfl, ?_⟩
  simp only [Item.pendCues, List.map_map]
  congr 1
  funext q
  simp only [Function.comp]
  split <;> rfl

theorem Item.enterReady_standing (x : Item) : x.Standing x.enterReady :=
  ⟨rfl, rfl, rfl, (Item.pendCues_standing x.advanceAiring Cue.pendsAtReady).specs⟩

theorem Item.enterAir_standing (x : Item) (start : Frame) : x.Standing (x.enterAir start) := ⟨rfl, rfl, rfl, rfl⟩

theorem State.sequencer_enterReady (s : State) (t : Track) (i : Slot) : s.SequencerLevel (s.enterReady t i) := by
  unfold State.enterReady
  dsimp only
  refine State.SequencerLevel.trans ?_ (State.sequencer_emitScript _ _ _)
  refine State.SequencerLevel.trans ?_ (State.sequencer_armPhase _ _ _ _)
  exact (State.sequencer_setSlot (Item.enterReady_standing _)).trans
    (State.sequencer_setTrack ⟨rfl, rfl, rfl, rfl, rfl, rfl, Nat.le_max_left _ _⟩)

theorem State.sequencer_unready (s : State) (t : Track) : s.SequencerLevel (s.unready t) := by
  unfold State.unready
  split
  · exact .refl s
  · next r _ =>
    dsimp only
    have h1 : s.SequencerLevel (if (s.slot r).state = .ready then s.setSlot r { s.slot r with state := .planned } else s) := by
      split
      · exact State.sequencer_setSlot ⟨rfl, rfl, rfl, rfl⟩
      · exact .refl s
    refine State.SequencerLevel.trans (h1.trans (State.sequencer_abandonPhase _ r .ready)) (State.sequencer_setTrack ?_)
    have h2 := (h1.trans (State.sequencer_abandonPhase _ r .ready)).run.config t
    have h3 : ((if (s.slot r).state = .ready then s.setSlot r { s.slot r with state := .planned } else s).abandonPhase r .ready).track t
        = s.track t := by
      rw [(State.cueLevel_abandonPhase _ _ _).track]
      split <;> rfl
    rw [h3]
    exact ⟨rfl, rfl, rfl, rfl, rfl, rfl, Nat.le_max_left _ _⟩

theorem State.sequencer_readyChoice (s : State) (t : Track) : s.SequencerLevel (s.readyChoice t) := by
  unfold State.readyChoice
  dsimp only
  split
  · exact .refl s
  · split
    · exact State.sequencer_unready s t
    · exact (State.sequencer_unready s t).trans (State.sequencer_enterReady _ t _)

theorem State.sequencer_skipItem (s : State) (i : Slot) : s.SequencerLevel (s.skipItem i) := by
  unfold State.skipItem
  dsimp only
  have h1 : s.SequencerLevel (s.setSlot i { (s.slot i).advanceRevision with state := .skipped }) :=
    State.sequencer_setSlot ⟨rfl, rfl, rfl, rfl⟩
  split
  · exact h1.trans (State.sequencer_abandonPhase _ _ _)
  · exact h1

theorem State.sequencer_skip (s : State) (t : Track) (i : Slot) : s.SequencerLevel (s.skip t i) := by
  unfold State.skip
  dsimp only
  refine State.SequencerLevel.trans ?_ (State.sequencer_readyChoice _ t)
  exact (State.sequencer_skipItem s i).trans (State.sequencer_setTrack ⟨rfl, rfl, rfl, rfl, rfl, rfl, Nat.le_max_left _ _⟩)

theorem State.sequencer_takeOutgoing (s : State) (t : Track) (f : Frame) : s.SequencerLevel (s.takeOutgoing t f) := by
  unfold State.takeOutgoing
  split
  · exact .refl s
  · dsimp only
    refine State.SequencerLevel.trans ?_ (State.sequencer_setReadsDone _ _)
    refine State.SequencerLevel.trans ?_ (State.sequencer_armPhase _ _ _ _)
    refine State.SequencerLevel.trans (State.sequencer_setSlot ?_) (State.sequencer_abandonPhase _ _ _)
    exact ⟨rfl, rfl, rfl, rfl⟩

theorem State.sequencer_takeIncoming (s : State) (t : Track) (i : Slot) (f : Frame) (l : List Slot) :
    s.SequencerLevel (s.takeIncoming t i f l) := by
  unfold State.takeIncoming
  dsimp only
  refine State.SequencerLevel.trans ?_ (State.sequencer_armPhase _ _ _ _)
  refine State.SequencerLevel.trans ?_ (State.sequencer_emitScript _ _ _)
  have h1 := State.SequencerLevel.foldl State.sequencer_skipItem l s
  have h2 := (h1.trans (State.sequencer_setSlot (Item.enterAir_standing ((l.foldl State.skipItem s).slot i) f))).trans
    (State.sequencer_setTrack (u := t) (x := { (l.foldl State.skipItem s).track t with onAir := some i, ready := none })
      ⟨rfl, rfl, rfl, rfl, rfl, rfl, Nat.le_max_left _ _⟩)
  split
  · exact h2
  · exact h2.trans (State.sequencer_emitScript _ _ _)

theorem State.sequencer_setCut (s : State) (p : PerTrack Bool) : s.SequencerLevel (s.setCut p) :=
  ⟨⟨by constructor <;> rfl, fun _ => .refl _, .refl _, rfl, rfl, rfl, fun _ => .refl _, fun h => h.same (fun _ => rfl) (fun k => by simp)⟩,
    rfl, rfl, rfl, rfl, fun _ => .refl _⟩

theorem State.sequencer_takeClose (s : State) (t : Track) : s.SequencerLevel (s.takeClose t) := by
  refine State.SequencerLevel.trans (.trans (State.sequencer_setTrack ?_) (State.sequencer_setCut _ _)) (State.sequencer_raise _ _)
  exact ⟨rfl, rfl, rfl, rfl, rfl, rfl, Nat.le_max_right _ _⟩

/-! ### Edits, groups, takes and track resets -/

theorem State.run_setSlot (s : State) (i : Slot) (x : Item) : s.RunLevel (s.setSlot i x) :=
  ⟨by constructor <;> rfl, fun _ => .refl _, .refl _, rfl, rfl, rfl, fun _ => .refl _, fun h => h.same (fun _ => rfl) (fun k => by simp)⟩

theorem State.run_setOrder (s : State) (t : Track) (l : List Slot) : s.RunLevel (s.setOrder t l) :=
  ⟨by constructor <;> rfl, fun _ => .refl _, .refl _, rfl, rfl, rfl, fun _ => .refl _, fun h => h.same (fun _ => rfl) (fun k => by simp)⟩

theorem State.run_setGroup (s : State) (g : GroupNo) (x : Group) : s.RunLevel (s.setGroup g x) :=
  ⟨by constructor <;> rfl, fun _ => .refl _, .refl _, rfl, rfl, rfl, fun _ => .refl _, fun h => h.same (fun _ => rfl) (fun k => by simp)⟩

theorem State.run_setArmed (s : State) (t : Track) (l : List GroupNo) : s.RunLevel (s.setArmed t l) :=
  ⟨by constructor <;> rfl, fun _ => .refl _, .refl _, rfl, rfl, rfl, fun _ => .refl _, fun h => h.same (fun _ => rfl) (fun k => by simp)⟩

theorem State.run_setStatus (s : State) (t : Track) (x : Status) : s.RunLevel (s.setStatus t x) :=
  ⟨by constructor <;> rfl, fun _ => .refl _, .refl _, rfl, rfl, rfl, fun _ => .refl _, fun h => h.same (fun _ => rfl) (fun k => by simp)⟩

theorem State.run_moveStatus (s : State) (t : Track) (x : Status) : s.RunLevel (s.moveStatus t x) := by
  unfold State.moveStatus
  split
  · exact .refl s
  · exact (State.run_setStatus s t x).trans (State.sequencer_raise _ _).run

theorem State.run_clearReadyOf (s : State) (t : Track) (i : Slot) : s.RunLevel (s.clearReadyOf t i) := by
  unfold State.clearReadyOf
  split
  · refine State.SequencerLevel.run (State.sequencer_setTrack ?_)
    exact ⟨rfl, rfl, rfl, rfl, rfl, rfl, Nat.le_max_left _ _⟩
  · exact .refl s

theorem State.run_createIn (s : State) (i : Slot) (t : Track) (a : Option Slot) (f : Fields) (l : List CueSpec) :
    s.RunLevel (s.createIn i t a f l) := (State.run_setSlot _ _ _).trans (State.run_setOrder _ _ _)

theorem State.run_reloadScript (s : State) (i : Slot) (p : Patch) : s.RunLevel (s.reloadScript i p) := by
  unfold State.reloadScript
  dsimp only
  split
  · split
    · exact (State.sequencer_emitPrompter _ _).run
    · exact .refl s
  · exact .refl s

theorem State.run_updateItem (s : State) (i : Slot) (p : Patch) (b : Bool) : s.RunLevel (s.updateItem i p b) :=
  (State.run_reloadScript s i p).trans (State.run_setSlot _ _ _)

theorem State.run_moveItem (s : State) (i : Slot) (a : Option Slot) (b : Bool) : s.RunLevel (s.moveItem i a b) :=
  (State.run_setSlot _ _ _).trans (State.run_setOrder _ _ _)

theorem State.run_retireItem (s : State) (i : Slot) : s.RunLevel (s.retireItem i) :=
  (((State.sequencer_abandonAll s i).run.trans (State.run_setSlot _ _ _)).trans (State.run_setOrder _ _ _)).trans
    (State.run_clearReadyOf _ _ _)

theorem State.run_restoreItem (s : State) (i : Slot) : s.RunLevel (s.restoreItem i) :=
  (State.sequencer_abandonAll s i).run.trans (State.run_setSlot _ _ _)

theorem State.run_recueItem (s : State) (i : Slot) (l : List CueSpec) (b : Bool) : s.RunLevel (s.recueItem i l b) := by
  unfold State.recueItem
  dsimp only
  have h := (State.sequencer_abandonAll s i).run.trans (State.run_setSlot _ i (((s.abandonAll i).slot i).recued l b))
  split
  · exact h.trans (State.sequencer_armPhase _ _ _ _).run
  · exact h

theorem State.run_carryOut (s : State) (i : Slot) (b : Bool) (e : EditBody) : s.RunLevel (s.carryOut i b e) := by
  cases e with
  | create t a f l => exact State.run_createIn _ _ _ _ _ _
  | update p => exact State.run_updateItem _ _ _ _
  | move a => exact State.run_moveItem _ _ _ _
  | retire => exact State.run_retireItem _ _
  | restore => exact State.run_restoreItem _ _
  | cues l => exact State.run_recueItem _ _ _ _

theorem State.run_keepWatch (s : State) : s.RunLevel s.keepWatch :=
  ⟨by constructor <;> rfl, s.keepWatch_keeps, .refl _, rfl, rfl, rfl, fun _ => .refl _,
    fun h => h.same (fun _ => rfl) (fun k => by simp)⟩

/-- An edit, whatever it does, keeps what every running operation keeps. -/
theorem State.run_performEdit (s : State) (i : Slot) (b : Bool) (e : EditBody) : s.RunLevel (s.performEdit i b e) :=
  s.run_keepWatch.trans (State.run_carryOut _ _ _ _)

theorem State.run_runEdits (ref : Reference) (k : Nat) (l : List StagedEdit) (s t : State)
    (h : State.runEdits ref k l s = .ok t) : s.RunLevel t := by
  induction l generalizing k s with
  | nil => cases h; exact .refl _
  | cons e l ih =>
    rw [State.runEdits] at h
    split at h
    · cases h
    · exact (State.run_performEdit s _ _ _).trans (ih _ _ h)

theorem State.run_freeReserved (s : State) (l : List Slot) : s.RunLevel (s.freeReserved l) :=
  State.RunLevel.foldl (fun _ i => State.run_setSlot _ i _) l s

theorem State.run_idleGroup (s : State) (g : GroupNo) (x : LastResult) : s.RunLevel (s.idleGroup g x) :=
  (State.run_setArmed _ _ _).trans (State.run_setGroup _ _ _)

theorem State.run_applyGroup (a b : Bank 512 Item) (s : State) (g : GroupNo) : s.RunLevel (State.applyGroup a b s g) := by
  unfold State.applyGroup
  split
  · next h => exact ((State.run_runEdits _ _ _ _ _ h).trans (State.run_idleGroup _ _ _)).trans (State.sequencer_raise _ _).run
  · exact ((State.run_freeReserved _ _).trans (State.run_idleGroup _ _ _)).trans (State.sequencer_raise _ _).run

theorem State.run_applyNow (s : State) (g : GroupNo) : s.RunLevel (s.applyNow g) := by
  unfold State.applyNow
  dsimp only
  split
  · exact (State.run_applyGroup _ _ _ _).trans (State.sequencer_readyChoice _ _).run
  · exact State.run_applyGroup _ _ _ _

theorem State.run_discardGroup (s : State) (g : GroupNo) : s.RunLevel (s.discardGroup g) :=
  (State.run_freeReserved _ _).trans (State.run_idleGroup _ _ _)

theorem State.run_applyArmed (s : State) (t : Track) (a : Bank 512 Item) : s.RunLevel (s.applyArmed t a) :=
  State.RunLevel.foldl (fun s g => State.run_applyGroup _ _ s g) _ s

theorem State.run_take (s : State) (t : Track) (i : Slot) (f : Frame) (l : List Slot) : s.RunLevel (s.take t i f l) := by
  unfold State.take
  dsimp only
  exact ((((State.sequencer_takeOutgoing s t f).run.trans (State.sequencer_takeIncoming _ t i f l).run).trans
    (State.run_applyArmed _ t _)).trans (State.sequencer_readyChoice _ t).run).trans (State.sequencer_takeClose _ t).run

theorem State.run_ordinaryTake (s : State) (t : Track) (i : Slot) : s.RunLevel (s.ordinaryTake t i) := State.run_take _ _ _ _ _

theorem State.run_pressTake (s : State) (t : Track) : s.RunLevel (s.pressTake t) := by
  unfold State.pressTake
  split
  · split
    · exact .refl s
    · exact State.run_ordinaryTake _ _ _
  · exact .refl s

theorem State.run_pressSkip (s : State) (t : Track) : s.RunLevel (s.pressSkip t) := by
  unfold State.pressSkip
  split
  · exact (State.sequencer_skip _ _ _).run
  · exact .refl s

theorem State.run_press (s : State) (i : PanelInput) : s.RunLevel (s.press i) := by
  unfold State.press
  split
  · exact State.run_pressTake _ _
  · exact State.run_pressSkip _ _
  · exact State.run_pressTake _ _
  · exact State.run_pressSkip _ _
  · exact ((State.cueLevel_clearAll s).sequencer (fun h => h.clearAll)).run
  · exact .refl s

theorem State.run_countLockout (s : State) (t : Track) : s.SequencerLevel (s.countLockout t) :=
  State.sequencer_setTrack ⟨rfl, rfl, rfl, rfl, rfl, rfl, Nat.le_trans (Nat.sub_le _ _) (Nat.le_max_left _ _)⟩

theorem State.sequencer_beginSequencer (s : State) (t : Track) : s.SequencerLevel (s.beginSequencer t) := by
  unfold State.beginSequencer
  split
  · exact State.sequencer_setCut _ _
  · exact State.run_countLockout s t

theorem State.run_sequencerWork (s : State) (t : Track) : s.RunLevel (s.sequencerWork t) := by
  unfold State.sequencerWork
  have h := (State.sequencer_beginSequencer s t).run
  dsimp only
  split
  · exact h.trans (State.run_take _ _ _ _ _)
  · split
    · exact h.trans (State.run_ordinaryTake _ _ _)
    · exact h

theorem State.run_resetTrack (s : State) (t : Track) : s.RunLevel (s.resetTrack t) := by
  unfold State.resetTrack
  dsimp only
  refine State.RunLevel.trans ?_ (State.sequencer_readyChoice _ t).run
  refine State.RunLevel.trans ?_ (State.RunLevel.foldl State.run_discardGroup _ _)
  refine State.RunLevel.trans ?_ (State.run_moveStatus _ t _)
  refine State.RunLevel.trans ?_ (State.SequencerLevel.run (State.sequencer_setTrack ?_))
  case refine_2 => exact ⟨rfl, rfl, rfl, rfl, rfl, rfl, Nat.zero_le _⟩
  exact (s.run_keepWatch.trans (State.RunLevel.foldl (fun s i => (State.sequencer_abandonAll s i).run) _ _)).trans
    (State.RunLevel.foldl (fun s i => State.run_setSlot s i _) _ _)

theorem State.run_statusWork (s : State) (t : Track) : s.RunLevel (s.statusWork t) := State.run_moveStatus _ _ _

end Sys2Proof.Machine
end

