-- ==== Sys2Proof/Laws/Choice.lean ====
section
/-! SUPPORT. What the READY choice does and what it leaves (R44, R45). -/

namespace Sys2Proof.Machine

theorem Item.Alike.refl (x : Item) : x.Alike x := by constructor <;> rfl

theorem Item.Alike.trans {x y z : Item} (a : x.Alike y) (b : y.Alike z) : x.Alike z :=
  ⟨b.condition.trans a.condition, b.revision.trans a.revision, b.track.trans a.track, b.fields.trans a.fields,
   b.specs.trans a.specs, b.start.trans a.start, b.actual.trans a.actual, b.prompterEnd.trans a.prompterEnd⟩

theorem Item.Kept.alike {x y : Item} (h : x.Kept y) : x.Alike y :=
  ⟨h.condition, h.revision, h.track, h.fields, h.specs, h.start, h.actual, h.prompterEnd⟩

/-- Two states that agree on all but the records, the tracks and what a cue-level operation changes. -/
structure State.ChoiceLevel (t : Track) (s u : State) : Prop where
  aside : s.Aside u
  flags : s.flags.Within u.flags
  orders : u.orders = s.orders
  groups : u.groups = s.groups
  armed : u.armed = s.armed
  status : u.status = s.status
  readsDone : u.readsDone = s.readsDone
  buffer : u.buffer = s.buffer
  sdoStatus : u.sdoStatus = s.sdoStatus
  sdo : u.sdo = s.sdo
  otherTrack : ∀ v, v ≠ t → u.track v = s.track v
  ownTrack : u.track t = { s.track t with ready := (u.track t).ready }
  items : ∀ i, (s.slot i).Alike (u.slot i)

theorem State.ChoiceLevel.refl (t : Track) (s : State) : State.ChoiceLevel t s s :=
  ⟨.refl s, .refl _, rfl, rfl, rfl, rfl, rfl, rfl, rfl, rfl, fun _ _ => rfl, rfl, fun _ => .refl _⟩

theorem State.ChoiceLevel.trans {t : Track} {s u w : State} (a : State.ChoiceLevel t s u) (b : State.ChoiceLevel t u w) :
    State.ChoiceLevel t s w :=
  ⟨a.aside.trans b.aside, a.flags.trans b.flags, b.orders.trans a.orders, b.groups.trans a.groups, b.armed.trans a.armed,
   b.status.trans a.status, b.readsDone.trans a.readsDone, b.buffer.trans a.buffer, b.sdoStatus.trans a.sdoStatus,
   b.sdo.trans a.sdo, fun v h => (b.otherTrack v h).trans (a.otherTrack v h), by rw [b.ownTrack, a.ownTrack],
   fun i => (a.items i).trans (b.items i)⟩

theorem State.CueLevel.choice {t : Track} {s u : State} (h : s.CueLevel u) : State.ChoiceLevel t s u :=
  ⟨h.aside, h.flags, h.orders, h.groups, h.armed, h.status, h.readsDone, h.buffer, h.sdoStatus, h.sdo,
   fun v _ => h.track v, by rw [h.track t], fun i => (h.items i).alike⟩

theorem State.choice_setSlot {t : Track} {s : State} {i : Slot} {x : Item} (h : (s.slot i).Alike x) :
    State.ChoiceLevel t s (s.setSlot i x) := by
  refine ⟨by constructor <;> rfl, .refl _, rfl, rfl, rfl, rfl, rfl, rfl, rfl, rfl, fun _ _ => rfl, rfl, fun j => ?_⟩
  rw [State.setSlot_slot]
  split
  · next e => subst e; exact h
  · exact .refl _

theorem State.choice_setReady (t : Track) (s : State) (r : Option Slot) :
    State.ChoiceLevel t s (s.setTrack t { s.track t with ready := r }) :=
  ⟨by constructor <;> rfl, .refl _, rfl, rfl, rfl, rfl, rfl, rfl, rfl, rfl, fun v hv => State.setTrack_track_ne _ _ _ hv,
   by simp, fun _ => .refl _⟩

theorem State.choice_emitScript (t : Track) (s : State) (x : Option Word32) (f : Word32 → OutFrame) :
    State.ChoiceLevel t s (s.emitScript x f) := by
  unfold State.emitScript
  split
  · exact ⟨by constructor <;> rfl, .refl _, rfl, rfl, rfl, rfl, rfl, rfl, rfl, rfl, fun _ _ => rfl, rfl, fun _ => .refl _⟩
  · exact .refl _ _

theorem Item.enterReady_alike (x : Item) : x.Alike x.enterReady :=
  ⟨rfl, rfl, rfl, rfl, (Item.pendCues_standing x.advanceAiring Cue.pendsAtReady).specs, rfl, rfl, rfl⟩

theorem State.choice_enterReady (s : State) (t : Track) (i : Slot) : State.ChoiceLevel t s (s.enterReady t i) := by
  unfold State.enterReady
  dsimp only
  refine State.ChoiceLevel.trans ?_ (State.choice_emitScript t _ _ _)
  refine State.ChoiceLevel.trans ?_ (State.cueLevel_armPhase _ _ _ _).choice
  exact (State.choice_setSlot (Item.enterReady_alike _)).trans (State.choice_setReady t _ _)

theorem State.choice_unready (s : State) (t : Track) : State.ChoiceLevel t s (s.unready t) := by
  unfold State.unready
  split
  · exact .refl _ s
  · next r _ =>
    dsimp only
    have h1 : State.ChoiceLevel t s (if (s.slot r).state = .ready then s.setSlot r { s.slot r with state := .planned } else s) := by
      split
      · exact State.choice_setSlot ⟨rfl, rfl, rfl, rfl, rfl, rfl, rfl, rfl⟩
      · exact .refl _ s
    have h2 := State.ChoiceLevel.trans h1 (State.cueLevel_abandon _ r (fun q => decide (q.spec.phase = .ready))).choice
    have ht : s.track t = (if (s.slot r).state = .ready then s.setSlot r { s.slot r with state := .planned } else s).track t := by
      split <;> rfl
    rw [ht, ← (State.cueLevel_abandon _ r (fun q => decide (q.spec.phase = .ready))).track t]
    exact h2.trans (State.choice_setReady t _ _)

theorem State.choice_readyChoice (s : State) (t : Track) : State.ChoiceLevel t s (s.readyChoice t) := by
  unfold State.readyChoice
  dsimp only
  split
  · exact .refl _ s
  · split
    · exact s.choice_unready t
    · exact (s.choice_unready t).trans (State.choice_enterReady _ t _)

/-! ### Candidates -/

/-- Candidates depend on the orders, the pointers, and each item's floated field and whether it is PLANNED. -/
theorem State.candidates_congr {s u : State} {t : Track} (ho : u.orders = s.orders) (hp : (u.track t).onAir = (s.track t).onAir)
    (hi : ∀ i, u.isCandidate t i = s.isCandidate t i) : u.candidates t = s.candidates t := by
  have h1 : u.afterOnAir t = s.afterOnAir t := by
    simp [State.afterOnAir, hp, State.order, ho]
  have h2 : u.isCandidate t = s.isCandidate t := funext hi
  simp [State.candidates, h1, h2]

theorem State.CueLevel.isCandidate {s u : State} (h : s.CueLevel u) (t : Track) (i : Slot) :
    u.isCandidate t i = s.isCandidate t i := by
  simp [State.isCandidate, (h.items i).fields, (h.items i).state, h.track t]

theorem State.CueLevel.candidates {s u : State} (h : s.CueLevel u) (t : Track) : u.candidates t = s.candidates t :=
  State.candidates_congr h.orders (by rw [h.track t]) (h.isCandidate t)

end Sys2Proof.Machine
end

