-- ==== Sys2Proof/Laws/Requests.lean ====
section
/-! SUPPORT. What a request transaction does around its own rule, and what a frame-work event does around its block's work. -/

namespace Sys2Proof.Machine

/-! ### The port -/

theorem State.request_free {s : State} (h : s.portFree) (n : Nat) (f : State → Reply) :
    s.request n f = (f (s.select n)).buffered := by
  simp [State.request, h.1, h.2]

theorem State.request_held {s : State} (h : s.held = true) (n : Nat) (f : State → Reply) : s.request n f = s := by
  simp [State.request, h]

theorem State.request_busy {s : State} (h : s.held = false) (hb : s.buffer ≠ .empty) (n : Nat) (f : State → Reply) :
    s.request n f = s.select n := by
  cases hs : s.buffer <;> simp_all [State.request]

/-- A refusal leaves the state with the answer alone (R155). -/
@[simp] theorem State.refuse_buffered (s : State) (n : Nat) (r : Result) :
    ((s.select n).refuse r).buffered = s.answeredWith n r .empty := rfl

/-- A request that carries no change leaves the state with the answer alone. -/
@[simp] theorem State.accept_buffered (s : State) (n : Nat) (c : Bool) (b : Body) :
    ((s.select n).accept c b).buffered = s.answeredWith n (if c then .clamped else .ok) b := rfl

@[simp] theorem State.ranged_none {α : Type} (s : State) (f : α → Reply) : s.ranged none f = s.refuse .range := rfl
@[simp] theorem State.ranged_some {α : Type} (s : State) (x : α) (f : α → Reply) : s.ranged (some x) f = f x := rfl
@[simp] theorem State.checked_none (s : State) (r : Reply) : s.checked none r = r := rfl
@[simp] theorem State.checked_some (s : State) (x : Result) (r : Reply) : s.checked (some x) r = s.refuse x := rfl

theorem State.select_aside (s : State) (n : Nat) : s.Aside (s.select n) := by constructor <;> rfl

/-- The busy bit of the status byte is set exactly while the buffer is not EMPTY (R154). -/
theorem flagByte_zero (b7 b6 b5 b4 b3 b2 b1 b0 : Bool) : (flagByte b7 b6 b5 b4 b3 b2 b1 b0).getLsbD 0 = b0 := by
  revert b7 b6 b5 b4 b3 b2 b1 b0; decide

/-- The eight bits of a status byte, bit 7 first. -/
theorem flagByte_bits (b7 b6 b5 b4 b3 b2 b1 b0 : Bool) :
    (List.range 8).map (flagByte b7 b6 b5 b4 b3 b2 b1 b0).getLsbD = [b0, b1, b2, b3, b4, b5, b6, b7] := by
  revert b7 b6 b5 b4 b3 b2 b1 b0; decide

/-! ### Identifiers and codes -/

theorem idOf_of_lt {n v : Nat} (h : v < n) : idOf n v = some ⟨v, h⟩ := by simp [idOf, h]

theorem idOf_of_le {n v : Nat} (h : n ≤ v) : idOf n v = none := by simp [idOf, Nat.not_lt.mpr h]

@[simp] theorem idOf_val {n : Nat} (i : Fin n) : idOf n i.val = some i := by simp [idOf]

@[simp] theorem trackOf_code (t : Track) : trackOf (trackCode t) = some t := by cases t <;> rfl

theorem trackOf_of_le {v : Nat} (h : 2 ≤ v) : trackOf v = none := by
  match v, h with
  | n + 2, _ => rfl

theorem clampTo_range {lo hi v : Nat} (h : lo ≤ hi) : lo ≤ clampTo lo hi v ∧ clampTo lo hi v ≤ hi := by
  unfold clampTo
  split
  · omega
  · split <;> omega

theorem clampTo_of_mem {lo hi v : Nat} (h1 : lo ≤ v) (h2 : v ≤ hi) : clampTo lo hi v = v := by
  unfold clampTo
  split
  · omega
  · split <;> omega

theorem outside_iff {lo hi v : Nat} : outside lo hi v = true ↔ v < lo ∨ hi < v := by simp [outside]

/-! ### Frame-work events -/

/-- The event occurs: the block's frame work is carried out whole, and is no longer outstanding. -/
theorem State.workWhen_due {s : State} {w : FrameWork} {occurs : State → Bool} (h : w ∈ s.due)
    (ho : occurs (s.setDue (s.due.erase w)) = true) : s.workWhen w occurs = (s.setDue (s.due.erase w)).runWork w := by
  simp [State.workWhen, ho, State.runDue, h]

/-- The work is not outstanding: nothing changes. -/
theorem State.workWhen_done {s : State} {w : FrameWork} {occurs : State → Bool} (h : w ∉ s.due) : s.workWhen w occurs = s := by
  simp [State.workWhen, h]

/-- The event does not occur: nothing changes. -/
theorem State.workWhen_not {s : State} {w : FrameWork} {occurs : State → Bool}
    (ho : occurs (s.setDue (s.due.erase w)) = false) : s.workWhen w occurs = s := by
  simp [State.workWhen, ho]

theorem State.unlessHeld_free {s : State} (h : s.held = false) (f : State → State) : s.unlessHeld f = f s := by
  simp [State.unlessHeld, h]

theorem State.unlessHeld_held {s : State} (h : s.held = true) (f : State → State) : s.unlessHeld f = s := by
  simp [State.unlessHeld, h]

end Sys2Proof.Machine
end

