-- ==== Sys2Proof/Laws/Commands.lean ====
section
/-! SUPPORT. What every request's rule decides: a refusal, or an answer over a state that keeps the hold and the status byte. -/

namespace Sys2Proof.Machine

/-- What a rule served on a state may decide: a refusal that leaves the state, or OK or CLAMPED over a state that keeps what the
port has shifted out and the hold. -/
structure Reply.From (s : State) (r : Reply) : Prop where
  refusal : r.result ≠ .ok → r.result ≠ .clamped → r = s.refuse r.result
  status : r.state.sdoStatus = s.sdoStatus
  sdo : r.state.sdo = s.sdo
  held : r.state.held = s.held

theorem Reply.From.refuse (s : State) (x : Result) : (s.refuse x).From s := ⟨fun _ _ => rfl, rfl, rfl, rfl⟩

theorem Reply.From.accept {s t : State} (c : Bool) (b : Body) (h1 : t.sdoStatus = s.sdoStatus) (h2 : t.sdo = s.sdo)
    (h3 : t.held = s.held) : (t.accept c b).From s := by
  refine ⟨fun ho hc => ?_, h1, h2, h3⟩
  cases c
  · exact absurd rfl ho
  · exact absurd rfl hc

theorem Reply.From.run {s t : State} (c : Bool) (b : Body) (h : s.RunLevel t) : (t.accept c b).From s :=
  .accept c b h.sdoStatus h.sdo h.aside.held

theorem Reply.From.ranged {α : Type} {s : State} {v : Option α} {f : α → Reply} (h : ∀ x, (f x).From s) : (s.ranged v f).From s := by
  cases v with
  | none => exact .refuse s _
  | some x => exact h x

theorem Reply.From.checked {s : State} {v : Option Result} {r : Reply} (h : r.From s) : (s.checked v r).From s := by
  cases v with
  | none => exact h
  | some x => exact .refuse s _

theorem State.run_changed (s : State) (b : Bool) (t : Track) : s.RunLevel (s.changed b t) := by
  unfold State.changed
  split
  · exact (State.sequencer_readyChoice _ _).run
  · exact .refl s

theorem State.run_makeDirect (s : State) (e : ParsedEdit) : s.RunLevel (s.makeDirect e) :=
  (State.run_performEdit _ _ _ _).trans (State.run_changed _ _ _)

theorem State.run_stage (s : State) (g : GroupNo) (e : ParsedEdit) : s.RunLevel (s.stage g e) := by
  unfold State.stage
  dsimp only
  refine State.RunLevel.trans ?_ (State.run_setGroup _ _ _)
  split
  · exact State.run_setSlot _ _ _
  · exact .refl s

theorem State.run_armGroup (s : State) (g : GroupNo) : s.RunLevel (s.armGroup g) :=
  (State.run_setGroup _ _ _).trans (State.run_setArmed _ _ _)

theorem State.run_launchGroup (s : State) (g : GroupNo) (m : LaunchMode) : s.RunLevel (s.launchGroup g m) := by
  unfold State.launchGroup
  dsimp only
  split
  · exact (State.run_setGroup _ _ _).trans (State.run_applyNow _ _)
  · exact (State.run_setGroup _ _ _).trans (State.run_armGroup _ _)

theorem State.direct_from (s : State) (e : Edit) : (s.direct e).From s :=
  .ranged fun e => .checked (.run _ _ (s.run_makeDirect e))

theorem State.serveItemRead_from (s : State) (id : Nat) : (s.serveItemRead id).From s :=
  .ranged fun i => by
    split
    · exact .accept _ _ rfl rfl rfl
    · exact .refuse _ _

theorem State.serveItemFind_from (s : State) (k : Nat) : (s.serveItemFind k).From s := by
  unfold State.serveItemFind
  split
  · exact .refuse _ _
  · split
    · exact .accept _ _ rfl rfl rfl
    · exact .refuse _ _

theorem State.serveRundownList_from (s : State) (a b c : Nat) : (s.serveRundownList a b c).From s :=
  .ranged fun _ => .ranged fun _ => .accept _ _ rfl rfl rfl

theorem State.serveEdit_from (s : State) (g : Nat) (e : Edit) : (s.serveEdit g e).From s := by
  unfold State.serveEdit
  split
  · exact s.direct_from e
  · exact .ranged fun g => .ranged fun e => .checked (.run _ _ (s.run_stage g e))

theorem State.serveGroupOpen_from (s : State) (g t : Nat) : (s.serveGroupOpen g t).From s :=
  .ranged fun g => .ranged fun t => by
    dsimp only
    split
    · exact .accept _ _ rfl rfl rfl
    · exact .refuse _ _

theorem State.serveGroupLaunch_from (s : State) (g m : Nat) : (s.serveGroupLaunch g m).From s :=
  .ranged fun g => .ranged fun m => by
    dsimp only
    split
    · exact .run _ _ (s.run_launchGroup g m)
    · exact .refuse _ _

theorem State.serveGroupDiscard_from (s : State) (g : Nat) : (s.serveGroupDiscard g).From s :=
  .ranged fun g => by
    split
    · exact .refuse _ _
    · exact .run _ _ (s.run_discardGroup g)

theorem State.serveGroupRead_from (s : State) (g : Nat) : (s.serveGroupRead g).From s := .ranged fun _ => .accept _ _ rfl rfl rfl

theorem State.serveTake_from (s : State) (t : Nat) : (s.serveTake t).From s :=
  .ranged fun t => by
    split
    · exact .refuse _ _
    · split
      · exact .refuse _ _
      · exact .run _ _ (s.run_ordinaryTake _ _)

theorem State.serveSkip_from (s : State) (t : Nat) : (s.serveSkip t).From s :=
  .ranged fun t => by
    split
    · exact .refuse _ _
    · exact .run _ _ (s.sequencer_skip _ _).run

theorem State.serveHold_from (s : State) (t v : Nat) : (s.serveHold t v).From s := .ranged fun _ => .ranged fun _ => .accept _ _ rfl rfl rfl

/-- A newly given hard-out sets the status alone. -/
theorem State.newlySet_eq (s : State) (t : Track) (x : TrackRec) : s.newlySet t x = { s with status := (s.newlySet t x).status } := by
  unfold State.newlySet
  split <;> rfl

theorem State.serveTrackConfig_from (s : State) (t f : Nat) (v : TrackSettings) : (s.serveTrackConfig t f v).From s :=
  .ranged fun t => by
    dsimp only
    split
    · exact .refuse _ _
    · rw [State.newlySet_eq]
      exact .accept _ _ rfl rfl rfl

theorem State.serveTrackRead_from (s : State) (t : Nat) : (s.serveTrackRead t).From s := .ranged fun _ => .accept _ _ rfl rfl rfl

theorem State.serveTrackReset_from (s : State) (t : Nat) : (s.serveTrackReset t).From s :=
  .ranged fun t => .run _ _ (s.run_resetTrack t)

theorem State.serveTimeSet_from (s : State) (v : Nat) : (s.serveTimeSet v).From s := .accept _ _ rfl rfl rfl

theorem State.serveTimeRead_from (s : State) : s.serveTimeRead.From s := .accept _ _ rfl rfl rfl

theorem State.servePresenterConfig_from (s : State) (p f : Nat) (v : PresenterSettings) : (s.servePresenterConfig p f v).From s :=
  .ranged fun p => by
    dsimp only
    split
    · exact .refuse _ _
    · exact .accept _ _ rfl rfl rfl

theorem State.servePresenterSeed_from (s : State) (p r : Nat) : (s.servePresenterSeed p r).From s :=
  .ranged fun _ => .accept _ _ rfl rfl rfl

theorem State.servePresenterRead_from (s : State) (p : Nat) : (s.servePresenterRead p).From s := .ranged fun _ => .accept _ _ rfl rfl rfl

theorem State.serveRouteWrite_from (s : State) (n f : Nat) (v : RouteSettings) : (s.serveRouteWrite n f v).From s :=
  .ranged fun n => by
    dsimp only
    split
    · exact .refuse _ _
    · exact .ranged fun _ => .accept _ _ rfl rfl rfl

theorem State.serveRouteRead_from (s : State) (n : Nat) : (s.serveRouteRead n).From s := by
  unfold State.serveRouteRead
  split
  · exact .accept _ _ rfl rfl rfl
  · exact .ranged fun _ => .accept _ _ rfl rfl rfl

theorem State.serveRouteTest_from (s : State) (x a t : Nat) : (s.serveRouteTest x a t).From s :=
  .ranged fun _ => .ranged fun _ => .accept _ _ rfl rfl rfl

theorem State.cueLevel_configureChannel (s : State) (c : Chan) (f : Nat) (v : ChannelSettings) :
    s.CueLevel (s.configureChannel c f v) := by
  have h1 : s.CueLevel (s.configKind c f v) := by
    unfold State.configKind
    split
    · exact State.cueLevel_giveKind _ _ _
    · exact .refl s
  have h2 : (s.configKind c f v).CueLevel ((s.configKind c f v).configMode c f v) := by
    unfold State.configMode
    split
    · exact State.cueLevel_giveFaultMode _ _ _
    · exact .refl _
  exact (h1.trans h2).trans (State.cueLevel_setChannel _ _ _)

theorem State.serveChannelConfig_from (s : State) (c f : Nat) (v : ChannelSettings) : (s.serveChannelConfig c f v).From s :=
  .ranged fun c => by
    dsimp only
    split
    · exact .refuse _ _
    · have h := s.cueLevel_configureChannel c f v
      exact .accept _ _ h.sdoStatus h.sdo h.aside.held

theorem State.serveChannelClear_from (s : State) (c : Nat) : (s.serveChannelClear c).From s :=
  .ranged fun c => by
    have h := s.cueLevel_clearChannel c
    exact .accept _ _ h.sdoStatus h.sdo h.aside.held

theorem State.serveChannelRead_from (s : State) (c : Nat) : (s.serveChannelRead c).From s := .ranged fun _ => .accept _ _ rfl rfl rfl

theorem State.serveEventRead_from (s : State) : s.serveEventRead.From s := .accept _ _ rfl rfl rfl

theorem State.serveAckReset_from (s : State) : s.serveAckReset.From s := .accept _ _ rfl rfl rfl

/-- What a PART.CONFIG's frame rate leaves is the time base alone changed. -/
theorem State.configureRate_eq (s : State) (f : Nat) (v : PartSettings) :
    s.configureRate f v = { s with
      frameRate := (s.configureRate f v).frameRate, sinceTimer := (s.configureRate f v).sinceTimer
      qualifying := (s.configureRate f v).qualifying } := by
  unfold State.configureRate State.setFrameRate
  split
  · split
    · rfl
    · cases s.reference <;> rfl
  · rfl

theorem State.servePartConfig_from (s : State) (f : Nat) (v : PartSettings) : (s.servePartConfig f v).From s := by
  unfold State.servePartConfig
  split
  · exact .refuse _ _
  · refine .ranged fun d => .accept _ _ ?_ ?_ ?_
    · rw [State.configureRate_eq]; rfl
    · rw [State.configureRate_eq]; rfl
    · rw [State.configureRate_eq]; rfl

theorem State.servePartRead_from (s : State) : s.servePartRead.From s := .accept _ _ rfl rfl rfl

theorem State.servePartReset_from (s : State) (h : s.held = false) : s.servePartReset.From s := .accept _ _ rfl rfl (by rw [h]; rfl)

end Sys2Proof.Machine

namespace Sys2Proof

open Sys2Proof.Machine

/-- A request is its rule, served at the port in a transaction of the request's length. -/
theorem Instr.exec_request {c : Instr} (h : c.isRequest = true) (hu : ∀ n bytes part, c ≠ .unknownRequest n bytes part) (s : State) :
    exec c s = .next (s.request c.writeLength (fun s => s.serve c)) := by
  cases c
  case unknownRequest length bytes part => exact absurd rfl (hu length bytes part)
  case stagedEdit group edit => cases edit <;> rfl
  all_goals first | rfl | cases h

/-- A write of any bytes is what its bytes carry, served at the port. -/
theorem Instr.exec_unknownRequest {length : Nat} (h : 0 < length) (bytes : List Byte) (part : Bool) (s : State) :
    exec (.unknownRequest length bytes part) s = .next (s.request bytes.length (fun s => s.serveBytes length bytes part)) := by
  simp [exec, execUnknownRequest, Nat.pos_iff_ne_zero.mp h]

end Sys2Proof

namespace Sys2Proof.Machine

/-- Bytes that fail a framing check are answered with what it gives (R151). -/
theorem State.serveBytes_framing {length : Nat} {bytes : List Byte} {part : Bool} {r : Result} (h : framing length bytes part = some r)
    (s : State) : s.serveBytes length bytes part = s.refuse r := by
  simp [State.serveBytes, h]

/-- Bytes that pass them are served as the request they spell. -/
theorem State.serveBytes_spelled {length : Nat} {code : Byte} {body : List Byte} {part : Bool} {c : Instr}
    (h : framing length (code :: body) part = none) (hc : requestOf code.toNat body = some c) (s : State) :
    s.serveBytes length (code :: body) part = s.serve c := by
  simp [State.serveBytes, h, hc]

/-- What a request's rule decides of a part out of reset. -/
theorem State.serve_from (s : State) (c : Instr) (h : s.held = false) : (s.serve c).From s := by
  cases c
  case itemCreate => simp only [State.serve]; exact s.direct_from _
  case itemUpdate => simp only [State.serve]; exact s.direct_from _
  case itemMove => simp only [State.serve]; exact s.direct_from _
  case itemRetire => simp only [State.serve]; exact s.direct_from _
  case itemRestore => simp only [State.serve]; exact s.direct_from _
  case itemCues => simp only [State.serve]; exact s.direct_from _
  case itemRead => simp only [State.serve]; exact s.serveItemRead_from _
  case itemFind => simp only [State.serve]; exact s.serveItemFind_from _
  case rundownList => simp only [State.serve]; exact s.serveRundownList_from _ _ _
  case stagedEdit => simp only [State.serve]; exact s.serveEdit_from _ _
  case groupOpen => simp only [State.serve]; exact s.serveGroupOpen_from _ _
  case groupLaunch => simp only [State.serve]; exact s.serveGroupLaunch_from _ _
  case groupDiscard => simp only [State.serve]; exact s.serveGroupDiscard_from _
  case groupRead => simp only [State.serve]; exact s.serveGroupRead_from _
  case trackTake => simp only [State.serve]; exact s.serveTake_from _
  case trackSkip => simp only [State.serve]; exact s.serveSkip_from _
  case trackHold => simp only [State.serve]; exact s.serveHold_from _ _
  case trackConfig => simp only [State.serve]; exact s.serveTrackConfig_from _ _ _
  case trackRead => simp only [State.serve]; exact s.serveTrackRead_from _
  case trackReset => simp only [State.serve]; exact s.serveTrackReset_from _
  case timeSet => simp only [State.serve]; exact s.serveTimeSet_from _
  case timeRead => simp only [State.serve]; exact s.serveTimeRead_from
  case presenterConfig => simp only [State.serve]; exact s.servePresenterConfig_from _ _ _
  case presenterSeed => simp only [State.serve]; exact s.servePresenterSeed_from _ _
  case presenterRead => simp only [State.serve]; exact s.servePresenterRead_from _
  case routeWrite => simp only [State.serve]; exact s.serveRouteWrite_from _ _ _
  case routeRead => simp only [State.serve]; exact s.serveRouteRead_from _
  case routeTest => simp only [State.serve]; exact s.serveRouteTest_from _ _ _
  case channelConfig => simp only [State.serve]; exact s.serveChannelConfig_from _ _ _
  case channelClear => simp only [State.serve]; exact s.serveChannelClear_from _
  case channelRead => simp only [State.serve]; exact s.serveChannelRead_from _
  case eventRead => simp only [State.serve]; exact s.serveEventRead_from
  case eventAckReset => simp only [State.serve]; exact s.serveAckReset_from
  case partConfig => simp only [State.serve]; exact s.servePartConfig_from _ _
  case partRead => simp only [State.serve]; exact s.servePartRead_from
  case partReset => simp only [State.serve]; exact s.servePartReset_from h
  all_goals (unfold State.serve; exact .refuse _ _)

/-- What the bytes of a write decide of a part out of reset. -/
theorem State.serveBytes_from (s : State) (length : Nat) (bytes : List Byte) (part : Bool) (h : s.held = false) :
    (s.serveBytes length bytes part).From s := by
  unfold State.serveBytes
  split
  · exact .ranged fun c => s.serve_from c h
  · exact .refuse _ _
  · exact .refuse _ _

end Sys2Proof.Machine
end

