-- ==== Sys2Proof/Laws/Links.lean ====
section
/-! SUPPORT. The bytes of a gallery frame, and what a receiver that is hunting makes of them (R164). -/

namespace Sys2Proof.Machine

@[simp] theorem byteSum_append (l m : List Byte) : byteSum (l ++ m) = byteSum l + byteSum m := by
  induction l with
  | nil => simp [byteSum]
  | cons b l ih =>
    have : ∀ (x : Byte) (k : List Byte), byteSum (x :: k) = x + byteSum k := fun _ _ => rfl
    rw [List.cons_append, this, this, ih, BitVec.add_assoc]

/-- The bytes of a frame after its lead: type, length, payload and check. -/
def frameBody (type : Byte) (payload : List Byte) : List Byte :=
  type :: BitVec.ofNat 8 payload.length :: (payload ++ [0 - byteSum (type :: BitVec.ofNat 8 payload.length :: payload)])

theorem linkFrame_eq (type : Byte) (payload : List Byte) : linkFrame type payload = lead :: frameBody type payload := by
  simp [linkFrame, frameBody]

/-- A frame the part forms has byte sum 0 (R164). -/
theorem byteSum_frameBody (type : Byte) (payload : List Byte) : byteSum (frameBody type payload) = 0 := by
  have h : frameBody type payload =
      (type :: BitVec.ofNat 8 payload.length :: payload) ++ [0 - byteSum (type :: BitVec.ofNat 8 payload.length :: payload)] := by
    simp [frameBody]
  have h1 : ∀ x : Byte, byteSum [x] = x := fun x => by simp [byteSum]
  rw [h, byteSum_append, h1]
  generalize byteSum (type :: BitVec.ofNat 8 payload.length :: payload) = x
  bv_omega

/-- Until the last byte of a frame a receiver goes on taking it. -/
theorem wholeFrame_short (l : List Byte) (t n : Byte) (rest : List Byte) (h : l = t :: n :: rest) (hn : rest.length < n.toNat + 1) :
    wholeFrame l = false := by
  subst h; simp [wholeFrame]; omega

theorem Receiver.feedAll_append (r : Receiver) (l m : List Byte) :
    r.feedAll (l ++ m) = (((r.feedAll l).1.feedAll m).1, (r.feedAll l).2 ++ ((r.feedAll l).1.feedAll m).2) := by
  induction l generalizing r with
  | nil => simp [Receiver.feedAll]
  | cons b l ih => simp [Receiver.feedAll, ih]

/-- A receiver that has taken part of a frame takes payload bytes as data. -/
theorem Receiver.feedAll_payload (t n : Byte) (got : List Byte) (more : List Byte) (h : got.length + more.length < n.toNat + 1) :
    (Receiver.taking (t :: n :: got)).feedAll more = (Receiver.taking (t :: n :: (got ++ more)), []) := by
  induction more generalizing got with
  | nil => simp [Receiver.feedAll]
  | cons b more ih =>
    have h1 : wholeFrame (t :: n :: (got ++ [b])) = false :=
      wholeFrame_short _ t n (got ++ [b]) rfl (by simp at h ⊢; omega)
    have h2 := ih (got ++ [b]) (by simp at h ⊢; omega)
    simp only [Receiver.feedAll, Receiver.feed, List.cons_append, h1]
    simp only [List.append_assoc, List.cons_append, List.nil_append] at h2
    simp [h2]

/-- A hunting receiver takes a well-formed frame whole and hunts again (R164). -/
theorem Receiver.feedAll_linkFrame (type : Byte) (payload : List Byte) (h : payload.length < 256) :
    Receiver.hunting.feedAll (linkFrame type payload) = (.hunting, [frameBody type payload]) := by
  have hn : (BitVec.ofNat 8 payload.length).toNat = payload.length := by simp; omega
  have hf : frameBody type payload = type :: BitVec.ofNat 8 payload.length :: payload ++
      [0 - byteSum (type :: BitVec.ofNat 8 payload.length :: payload)] := by simp [frameBody]
  rw [linkFrame_eq, hf]
  generalize 0 - byteSum (type :: BitVec.ofNat 8 payload.length :: payload) = c
  have h0 : lead :: (type :: BitVec.ofNat 8 payload.length :: payload ++ [c]) =
      [lead, type, BitVec.ofNat 8 payload.length] ++ (payload ++ [c]) := by simp
  have h1 : wholeFrame [type, BitVec.ofNat 8 payload.length] = false := wholeFrame_short _ _ _ [] rfl (by simp)
  have h2 : Receiver.hunting.feedAll [lead, type, BitVec.ofNat 8 payload.length] =
      (Receiver.taking [type, BitVec.ofNat 8 payload.length], []) := by
    have h3 : wholeFrame [type] = false := rfl
    simp [Receiver.feedAll, Receiver.feed, h1, h3]
  have h4 := Receiver.feedAll_payload type (BitVec.ofNat 8 payload.length) [] payload (by simp [hn])
  rw [h0, Receiver.feedAll_append, h2, Receiver.feedAll_append, h4]
  have h5 : wholeFrame (type :: BitVec.ofNat 8 payload.length :: (payload ++ [c])) = true := by
    simp [wholeFrame, hn]
  simp [Receiver.feedAll, Receiver.feed, h5]

@[simp] theorem payloadOf_frameBody (type : Byte) (payload : List Byte) : payloadOf (frameBody type payload) = payload := by
  simp [payloadOf, frameBody]

@[simp] theorem headD_frameBody (type : Byte) (payload : List Byte) (d : Byte) : (frameBody type payload).headD d = type := rfl

/-- A frame whose payload has the size its type asks for is valid (R164). -/
theorem validFrame_frameBody (k : RxLink) (type : Byte) (payload : List Byte) (h : payload.length < 256)
    (hs : ∀ n ∈ incomingSize k type, payload.length = n) : validFrame k (frameBody type payload) = true := by
  have hn : (BitVec.ofNat 8 payload.length).toNat = payload.length := by simp; omega
  unfold validFrame
  rw [byteSum_frameBody]
  simp only [frameBody, hn]
  cases hi : incomingSize k type with
  | none => simp
  | some n => simp [hs n (by simp [hi])]

/-- A valid frame arriving whole at a hunting receiver is taken, and the receiver hunts again (R164). -/
theorem State.receive_linkFrame (s : State) (k : RxLink) (type : Byte) (payload : List Byte) (hr : s.rx k = .hunting)
    (h : payload.length < 256) :
    s.receive k (linkFrame type payload) = State.takeFrame k (s.setRx k .hunting) (frameBody type payload) := by
  simp [State.receive, hr, Receiver.feedAll_linkFrame type payload h]

/-- The receiver a frame leaves is the one it found. -/
theorem State.setRx_hunting (s : State) (k : RxLink) (h : s.rx k = .hunting) : s.setRx k .hunting = s := by
  cases k with
  | device c =>
    simp only [State.rx] at h
    simp only [State.setRx, ← h, Bank.set_get]
  | prompter =>
    simp only [State.rx] at h
    simp only [State.setRx, ← h]

end Sys2Proof.Machine
end

