-- ==== Sys2Proof/Laws/Tables.lean ====
section
/-! SUPPORT. The searches of the item table and the checks of an edit, in the terms of the statements. -/

namespace Sys2Proof.Machine

variable {s : State}

/-- What holds of every slot is what holds of every cell of the item table. -/
theorem State.forall_slot {p : Item → Prop} : (∀ i, p (s.slot i)) ↔ ∀ x ∈ s.slots.cells, p x := by
  simp [Bank.mem_cells, State.slot]

/-- What holds of every slot with its number is what holds of every entry of the item table. -/
theorem State.forall_entry {p : Slot → Item → Prop} : (∀ i, p i (s.slot i)) ↔ ∀ e ∈ s.slots.entries, p e.1 e.2 := by
  constructor
  · rintro h ⟨i, x⟩ he
    obtain rfl : x = s.slot i := Bank.mem_entries.mp he
    exact h i
  · exact fun h i => h (i, s.slot i) (Bank.mem_entries.mpr rfl)

/-- The key check of an edit (R8, R12 step 6). -/
theorem State.keyHeldByOther_iff {key : Word32} {named : Option Slot} :
    s.keyHeldByOther key named = true ↔ ∃ j, (s.slot j).isLive = true ∧ (s.slot j).fields.key = key ∧ named ≠ some j := by
  simp only [State.keyHeldByOther, List.any_eq_true, Bool.and_eq_true, decide_eq_true_eq]
  constructor
  · rintro ⟨⟨i, x⟩, he, ⟨h1, h2⟩, h3⟩
    obtain rfl : x = s.slot i := Bank.mem_entries.mp he
    exact ⟨i, h1, h2, h3⟩
  · rintro ⟨j, h1, h2, h3⟩
    exact ⟨(j, s.slot j), Bank.mem_entries.mpr rfl, ⟨h1, h2⟩, h3⟩

theorem State.keyTaken_iff {key : Nat} {named : Option Slot} :
    s.keyTaken key named ↔ s.keyHeldByOther (BitVec.ofNat 32 key) named = true := State.keyHeldByOther_iff.symm

/-- A number that names a slot names that slot alone. -/
theorem exists_named {p : Slot → Prop} (a : Slot) : (∃ b : Slot, a.val = b.val ∧ p b) ↔ p a :=
  ⟨fun ⟨_, h, hp⟩ => (Fin.ext h) ▸ hp, fun h => ⟨a, rfl, h⟩⟩

/-- The head is named by no slot's number. -/
theorem not_exists_head {p : Slot → Prop} : ¬∃ b : Slot, 0xFFFF = b.val ∧ p b := fun ⟨b, h, _⟩ => by have := b.isLt; omega

/-- The anchor check of an edit that names an item (R12 step 5). -/
theorem State.anchorBad_slot {t : Track} {named : Option Slot} (a : Slot) :
    s.anchorBad t named a.val ↔ s.anchorOk t named (some a) = false := by
  rw [State.anchorBad, exists_named, State.anchorOk, ← Bool.not_eq_true]
  simp [and_assoc]

/-- The head is always an anchor (R12 step 5). -/
theorem State.not_anchorBad_head {t : Track} {named : Option Slot} : ¬s.anchorBad t named 0xFFFF := not_exists_head

/-- The anchor check of an edit (R12 step 5). -/
theorem State.anchorOk_iff {t : Track} {named anchor : Option Slot} :
    s.anchorOk t named anchor = true ↔ ¬s.anchorBad t named (anchorCode anchor) := by
  cases anchor with
  | none => exact ⟨fun _ => State.not_anchorBad_head, fun _ => rfl⟩
  | some a =>
    show _ ↔ ¬s.anchorBad t named a.val
    rw [State.anchorBad_slot, Bool.not_eq_false]

/-- The anchor check of a staged edit that names an item or a reserved slot (R27 step 7). -/
theorem State.stagedAnchorBad_slot {g : GroupNo} {named : Option Slot} (a : Slot) :
    s.stagedAnchorBad g named a.val ↔ s.stagedAnchorOk (s.group g) named (some a) = false := by
  rw [State.stagedAnchorBad, exists_named, State.stagedAnchorOk, ← Bool.not_eq_true]
  simp

/-- The head is always an anchor of a staged edit (R27 step 7). -/
theorem State.not_stagedAnchorBad_head {g : GroupNo} {named : Option Slot} : ¬s.stagedAnchorBad g named 0xFFFF := not_exists_head

/-- The entry of the item table at a slot's number. -/
theorem State.getElem_entries (i : Slot) (h : i.val < s.slots.entries.length) : s.slots.entries[i.val] = (i, s.slot i) := by
  simp [Bank.entries, State.slot, Bank.get]

/-- The first entry of the item table that passes a test (R1, R21). -/
theorem State.find_entry {p : Slot × Item → Bool} {i : Slot} :
    (s.slots.entries.find? p).map (·.1) = some i ↔ p (i, s.slot i) = true ∧ ∀ j, j < i → p (j, s.slot j) = false := by
  simp only [Option.map_eq_some_iff]
  constructor
  · rintro ⟨e, he, rfl⟩
    obtain ⟨h1, k, hk, h2, h3⟩ := List.find?_eq_some_iff_getElem.mp he
    have hk' : k < 512 := by simpa using hk
    have e2 := State.getElem_entries (s := s) ⟨k, hk'⟩ hk
    rw [h2] at e2
    subst e2
    refine ⟨h1, fun j hj => ?_⟩
    have := h3 j.val hj
    rw [State.getElem_entries j] at this
    simpa using this
  · rintro ⟨h1, h2⟩
    refine ⟨(i, s.slot i), List.find?_eq_some_iff_getElem.mpr ⟨h1, i.val, by simp, State.getElem_entries i _, fun j hj => ?_⟩, rfl⟩
    have := h2 ⟨j, by omega⟩ hj
    rw [State.getElem_entries ⟨j, by omega⟩]
    simpa using this

/-- No entry of the item table passes a test. -/
theorem State.find_entry_none {p : Slot × Item → Bool} :
    (s.slots.entries.find? p).map (·.1) = none ↔ ∀ i, p (i, s.slot i) = false := by
  simp only [Option.map_eq_none_iff, List.find?_eq_none, Bool.not_eq_true]
  exact (State.forall_entry (p := fun i x => p (i, x) = false)).symm

/-- The lowest-numbered free slot (R1). -/
theorem State.lowestFree_eq {i : Slot} :
    s.lowestFree = some i ↔ (s.slot i).condition = .free ∧ ∀ j, j < i → (s.slot j).condition ≠ .free := by
  rw [State.lowestFree, State.find_entry]; simp

/-- No slot is free (R1). -/
theorem State.lowestFree_none : s.lowestFree = none ↔ ∀ i, (s.slot i).condition ≠ .free := by
  rw [State.lowestFree, State.find_entry_none]; simp

/-- A key found in the map (R8, R21). -/
theorem State.findKey_eq {key : Word32} {i : Slot} :
    s.findKey key = some i ↔ ((s.slot i).isLive = true ∧ (s.slot i).fields.key = key) ∧
      ∀ j, j < i → (s.slot j).isLive = true → (s.slot j).fields.key ≠ key := by
  rw [State.findKey, State.find_entry]; simp

/-- A key that is not in the map (R8, R21). -/
theorem State.findKey_none {key : Word32} : s.findKey key = none ↔ ∀ i, (s.slot i).isLive = true → (s.slot i).fields.key ≠ key := by
  rw [State.findKey, State.find_entry_none]; simp

end Sys2Proof.Machine
end

