-- ==== Sys2Proof/Tests/Slice0.lean ====
section
/-! SUPPORT. Tests of single commands against the worked sequences of chapter 12 and the rules, the smoke test of
well-formedness, and for each statement with hypotheses a state and operands that meet them. -/

-- One theorem after another: many kernel evaluations at once take more memory than a check allows.
set_option Elab.async false

namespace Sys2Proof.Tests

open Sys2Proof.Machine

/-! ### The gallery of section 12.1 -/

/-- The state a command leaves. -/
def after (c : Instr) (s : State) : State :=
  match exec c s with
  | .next t => t
  | _ => s

/-- A live item. -/
def item (t : Track) (revision : Word16) (state : ItemState) (f : Fields) : Item :=
  { condition := .live, revision := revision, track := t, fields := f, state := state }

/-- The PLAY cue of section 12: START, target 4101. -/
def playCue (offset : Nat) : CueSpec := ⟨.start, offset, 4101, .play, 7⟩

/-- The items of section 12.1; the ten earlier items of the bulletin are DONE. -/
def galleryItems : List (Slot × Item) :=
  (List.finRange 10).map (fun i => (Fin.castLE (by decide) i, { item .a 1 .done { key := BitVec.ofNat 32 (100 + i.val) } with actual := some 5 })) ++
  [(10, { item .a 8 .onAir { key := 110, words := 150, presenter := some 2, script := some 510 } with start := some 49000 }),
   (11, item .a 6 .ready { key := 111, kind := .package, planned := 2500 }),
   (12, item .a 3 .planned { key := 112, words := 300, presenter := some 2, script := some 512 }),
   (13, item .a 5 .planned { key := 113, kind := .brk, planned := 1500, hardIn := some 56000 }),
   (14, { item .a 2 .planned { key := 114, kind := .live, planned := 1000 } with cues := [(playCue 0).fresh] }),
   (15, { revision := 4, airing := 9 }),
   (30, { item .b 1 .onAir { key := 130, kind := .clip, planned := 5000 } with start := some 49500 }),
   (31, { item .b 1 .ready { key := 131, kind := .clip, planned := 500 } with cues := [(playCue 10).fresh] }),
   (32, item .b 1 .planned { key := 132, words := 100, presenter := some 2 })]

/-- A state with some slots set. -/
def withItems (l : List (Slot × Item)) (s : State) : State := l.foldl (fun s e => s.setSlot e.1 e.2) s

/-- A state with what the sequencers look at and the count as a frame event at it would leave them. -/
def looked (s : State) : State := { s with counted := s.sfc, looks := ⟨s.lookNow .a, s.lookNow .b⟩ }

/-- The gallery at SFC 50,000 (section 12.1). -/
def gallery : State := looked
  { withItems galleryItems State.reset with
    sfc := 50000
    orders := ⟨[0, 1, 2, 3, 4, 5, 6, 7, 8, 9, 10, 11, 12, 13, 14], [30, 31, 32]⟩
    tracks := ⟨{ onAir := some 10, ready := some 11, hardOut := some 58000 }, { onAir := some 30, ready := some 31 }⟩
    status := ⟨.overTime, .none⟩
    presenters := State.reset.presenters.modify 2 (fun x => { x with enabled := true })
    routes := (State.reset.routes.modify 0 (fun r => { r with enabled := false })).set 2
      { enabled := true, base := 4096, mask := 255, tracks := 3, actions := 7
        delivery := { channel := 3, preroll := 5, mode := .answer } }
    channels := State.reset.channels.set 3 { kind := .clip, state := .ready, faultMode := .retry, tag := 3 } }

/-- Section 12.1: the estimates of items 10 and 12, the projection of Track A and its U. -/
theorem test_gallery_projection :
    (gallery.derived 10).estimate = some 1250 ∧ (gallery.derived 12).estimate = some 2500 ∧
      (gallery.projection .a).map (fun p => (p.slot, p.working, p.front, p.gap)) =
        [(10, 1250, 49000, none), (11, 2500, 50250, none), (12, 2500, 52750, none), (13, 1500, 56000, some 750),
         (14, 1000, 57500, none)] ∧
      gallery.overUnder .a = some 500 := by decide +kernel

/-- The group of section 12.2 as the host opens it. -/
def opened : State := gallery.setGroup 0 { state := .opened }

/-- The item field block of slot 15: key 8800, CLIP, planned 750. -/
def newClip : RawBlock := ⟨8800, 1, 0, 0, 0, 750, 0, 0⟩

/-- The two cues of slot 15. -/
def newCues : List RawCue := [⟨0x10, 0, 4101, 1⟩, ⟨0x11, 8, 4101, 2⟩]

/-- Section 12.2: the staged CREATE. -/
theorem test_staged_create :
    let s := after (.stagedEdit 0 (.create 0 11 newClip newCues)) opened
    (s.slot 15).condition = .staged ∧ (s.slot 15).revision = 4 ∧ (s.slot 15).airing = 9 ∧ s.entriesInUse = 4 ∧
      s.freeStaging = 127 ∧ (s.group 0).reserved = [15] := by decide +kernel

/-- The group with the three edits of section 12.2 staged. -/
def staged : State :=
  (opened.setSlot 15 ((opened.slot 15).reserve .a { key := 8800, kind := .clip, planned := 750 } [playCue 0, playCue 8])).setGroup 0
    { state := .opened, reserved := [15], reservedEntries := 2
      edits := [⟨15, none, .create .a (some 11) { key := 8800, kind := .clip, planned := 750 }
          [⟨.start, 0, 4101, .load, 1⟩, ⟨.start, 8, 4101, .play, 2⟩]⟩,
        ⟨14, some 2, .retire⟩, ⟨12, some 3, .update { words := some 200 }⟩] }

/-- Section 12.2: the launch to the boundary arms the group at place 0. -/
theorem test_group_launch_arms :
    let s := after (.groupLaunch 0 1) staged
    (s.group 0).state = .armed ∧ s.armedQueue .a = [0] ∧ s.buffer = .ready ⟨.ok, .launched .armed .none (some 0)⟩ ∧
      s.summary.getLsbD 1 = true := by decide +kernel

/-- Section 12.3: END for script 510 on Track A. -/
theorem test_end_report :
    ((after (.endReport 510 0) { gallery with sfc := 50300 }).slot 10).prompterEnd = some 50300 ∧
      ((after (.endReport 511 0) { gallery with sfc := 50300 }).slot 10).prompterEnd = none := by decide +kernel

/-- Track A at frame event 50,310, the group ARMED and TAKE A active at its second sample (section 12.3). -/
def takeDue : State :=
  { ((staged.setGroup 0 { staged.group 0 with state := .armed }).setArmed .a [0]).setInput 0 ⟨false, 1, true⟩ with
    sfc := 50310, due := [.panel 0] }

/-- Section 12.3: the panel take, with its group applied at stage 3. -/
theorem test_panel_take :
    let s := after (.panelDebounceExpiry 0) (takeDue.setSlot 10 { takeDue.slot 10 with prompterEnd := some 50300 })
    ((s.slot 10).state = .done ∧ (s.slot 10).revision = 9 ∧ (s.slot 10).actual = some 1313) ∧
      ((s.slot 11).state = .onAir ∧ (s.slot 11).start = some 50313 ∧ (s.slot 11).revision = 7) ∧
      ((s.slot 15).state = .ready ∧ (s.slot 15).revision = 5 ∧ (s.slot 15).airing = 10) ∧
      ((s.slot 14).condition = .free ∧ (s.slot 14).revision = 3) ∧
      ((s.slot 12).fields.words = 200 ∧ (s.slot 12).revision = 4) ∧
      s.order .a = [0, 1, 2, 3, 4, 5, 6, 7, 8, 9, 10, 11, 15, 12, 13] ∧ s.entriesInUse = 3 ∧ s.freeStaging = 128 ∧
      (s.track .a).lockoutCount = 12 ∧ (s.track .a).lastTake = some 50310 ∧ (s.group 0).last = .applied ∧
      s.flags.takeA = true ∧ s.flags.groupDone = true ∧
      s.readsDone = [⟨10, .a, .read, some 2, 150, false, 49000, 1313, some 50300⟩] := by decide +kernel

/-- Section 12.4: the completion of item 10 is learnt. -/
theorem test_sample :
    let s := after .presenterCompletion (gallery.setReadsDone [⟨10, .a, .read, some 2, 150, false, 49000, 1313, some 50300⟩])
    (s.presenter 2).rate = 2144 ∧
      (s.presenter 2).last = some ⟨10, .a, .prompter, 1300, 150, 2219, 86, some 3, .learned, 2144⟩ ∧
      (s.derived 32).estimate = some 838 := by decide +kernel

/-- Section 12.4: Track A's projection and status at frame event 50,311, item 14 retired. -/
theorem test_status_under :
    let s := after (.flywheelTick ⟨0, [.status .a]⟩) (withItems
      [(10, item .a 9 .done {}), (11, { item .a 7 .onAir { kind := .package, planned := 2500 } with start := some 50313 }),
       (15, item .a 5 .ready { kind := .clip, planned := 750 }), (14, {}),
       (12, item .a 4 .planned { words := 200, presenter := some 2 })]
      { gallery with
        sfc := 50310, orders := ⟨[10, 11, 15, 12, 13], []⟩
        tracks := ⟨{ onAir := some 11, ready := some 15, hardOut := some 58000 }, {}⟩
        presenters := gallery.presenters.modify 2 (fun x => { x with rate := 2144 }) })
    s.overUnder .a = some (-500) ∧ s.statusOf .a = .underTime ∧ s.flags.timingA = true ∧ s.sfc = 50311 := by decide +kernel

/-- Slot 15 READY with its two cues, channel 3 BUSY with item 31's (section 12.5). -/
def preload : State :=
  (withItems
    [(11, { item .a 7 .onAir { kind := .package, planned := 2500 } with start := some 50313 }),
     (15, { item .a 5 .ready { kind := .clip, planned := 750 } with
        airing := 10, cues := [CueSpec.fresh ⟨.start, 0, 4101, .load, 1⟩, CueSpec.fresh ⟨.start, 8, 4101, .play, 2⟩] })]
    { gallery with
      sfc := 52810, orders := ⟨[11, 15, 12, 13], []⟩, tracks := ⟨{ onAir := some 11, ready := some 15 }, {}⟩ }).setChannel 3
    { gallery.channel 3 with
      state := .busy, tag := 4
      command := some ⟨⟨31, 1, 0⟩, .b, .play, 7, .answer, 0, 10, 0, 4, 52806, 4⟩ }

/-- Section 12.5: the take of slot 15 arms its cues; the preload is late and queued. -/
theorem test_take_arms_cues :
    let s := after (.trackTake 0) preload
    (s.slot 11).actual = some 2500 ∧ (s.slot 15).airing = 11 ∧ (s.track .a).ready = some 12 ∧
      (s.prompterTx.sending = some (.loadScript 512 .a)) ∧
      (s.slot 15).cues.map (fun q => (q.state, q.lateFired, q.lateness, q.fire)) =
        [(.queued, true, 2, some 52810), (.armed, false, 0, some 52816)] ∧
      s.firing = [⟨52816, 15, 1⟩] ∧ (s.channel 3).queue.map (fun q => q.cue) = [⟨15, 11, 0⟩] := by decide +kernel

/-- The cue of slot 15 at an index, as its channel holds it (section 12.5). -/
def queuedAt (k : Nat) (a : Action) (fire : Frame) : Queued := ⟨⟨15, 11, k⟩, .a, a, 1, fire, .answer, 0, 10, 0, 5⟩

/-- Slot 15 on air, its LOAD queued on channel 3 and its PLAY armed. -/
def preloaded : State :=
  ((preload.setSlot 15 { item .a 6 .onAir { kind := .clip, planned := 750 } with
      airing := 11, start := some 52813
      cues := [{ spec := ⟨.start, 0, 4101, .load, 1⟩, state := .queued, resolved := some ⟨.entry 2, (gallery.route 2).delivery⟩
                 fire := some 52810, lateFired := true, lateness := 2 },
        { spec := ⟨.start, 8, 4101, .play, 2⟩, state := .armed, resolved := some ⟨.entry 2, (gallery.route 2).delivery⟩
          fire := some 52816 }] }).setChannel 3
    { preload.channel 3 with queue := [queuedAt 0 .load 52810] }).setFiring [⟨52816, 15, 1⟩]

/-- Section 12.5: the device accepts tag 4, and the head of the queue is sent with tag 5. -/
theorem test_accept_grants_the_head :
    let s := after (.accept 3 4) { preloaded with sfc := 52811 }
    s.cuesDone = [⟨⟨31, 1, 0⟩, .done⟩] ∧ (s.channel 3).state = .busy ∧ (s.channel 3).tag = 5 ∧
      (s.channel 3).command.map (fun k => (k.cue, k.sendFrame, k.busy)) = some (⟨15, 11, 0⟩, 52811, 0) ∧
      (s.deviceTx.get 3).sending = some (.command 5 .load 1 .a) ∧ (s.cue? 15 0).map (fun q => q.state) = some .sent ∧
      after (.accept 3 5) preloaded = preloaded.setChannel 3 { preloaded.channel 3 with silent := 0 } := by decide +kernel

/-- Section 12.5: slot 15's PLAY is offered at 52,816 and queued behind the LOAD. -/
theorem test_cue_offer_queues :
    let s := after .cueOffer (looked { preloaded with sfc := 52816, due := [.scheduler] })
    s.firing = [] ∧ (s.channel 3).queue.map (fun q => q.cue.index) = [0, 1] ∧ s.due = [] ∧
      (let x := looked { preloaded with sfc := 52815, due := [.scheduler] }; after .cueOffer x = x) := by
  decide +kernel

/-- Section 12.5: a cue sent ahead of its channel's frame work at 52,806 has busy count 0 there, and 1 a frame event later. -/
theorem test_count_begins_behind_the_send :
    let s := { preloaded.setChannel 3 { gallery.channel 3 with queue := [queuedAt 0 .load 52806] } with
      sfc := 52806, due := [.channel 3] }
    let sent := s.grant 3
    (sent.channel 3).state = .busy ∧ ((sent.channel 3).command.map Command.busy) = some 0 ∧
      (((sent.runWork (.channel 3)).channel 3).command.map Command.busy) = some 0 ∧
      ((({ sent.runWork (.channel 3) with due := [.channel 3] }.runWork (.channel 3)).channel 3).command.map Command.busy) = some 1 := by
  decide +kernel

/-- Channel 3 with slot 15's LOAD sent at 52,811 and its PLAY queued, its busy count at 9 (section 12.6). -/
def answering : State :=
  { preloaded.setChannel 3 { preloaded.channel 3 with
      tag := 5, queue := [queuedAt 1 .play 52816]
      command := some ⟨⟨15, 11, 0⟩, .a, .load, 1, .answer, 0, 10, 0, 5, 52811, 9⟩ } with
    sfc := 52821, due := [.channel 3] }

/-- Section 12.6: the answer timeout in RETRY mode, and nothing a frame earlier. -/
theorem test_answer_timeout :
    let s := after (.answerTimeout 3) answering
    s.cuesDone = [⟨⟨15, 11, 0⟩, .failed .timeout⟩] ∧ (s.channel 3).state = .recovering ∧ (s.channel 3).recovery = 250 ∧
      (s.channel 3).faultFlag = true ∧ (s.channel 3).faultCause = some .timeout ∧ s.flags.channelFault = true ∧
      (s.channel 3).queue.length = 1 ∧ after (.dwellExpiry 3) answering = answering := by decide +kernel

/-- Section 12.6: the completion fails the LOAD of slot 15, which stays on air. -/
theorem test_cue_completion_fails :
    let s := after .cueCompletion ((preloaded.setCueState 15 0 .sent).setCuesDone [⟨⟨15, 11, 0⟩, .failed .timeout⟩])
    (s.cue? 15 0).map (fun q => (q.state, q.failCause)) = some (.failed, some .timeout) ∧ (s.slot 15).cueFault = true ∧
      s.flags.cueFail = true ∧ (s.slot 15).state = .onAir := by decide +kernel

/-- Channel 3 RECOVERING. -/
def recovering (count : Nat) (queue : List Queued) : State :=
  { preloaded.setChannel 3 { preloaded.channel 3 with
      state := .recovering, command := none, recovery := count, queue := queue, faultFlag := true, faultCause := some .timeout } with
    sfc := 52822, due := [.channel 3] }

/-- Section 12.6: at 52,822 slot 15's PLAY fails LATE, and the recovery count becomes 249. -/
theorem test_cue_aged_late :
    let s := after (.cueAgedLate 3) (recovering 250 [queuedAt 1 .play 52816])
    (s.cue? 15 1).map (fun q => q.failCause) = some (some .late) ∧ (s.channel 3).queue = [] ∧ (s.channel 3).recovery = 249 := by
  decide +kernel

/-- Section 12.6: the recovery ends at its last frame, the fault flag still set. -/
theorem test_recovery_expiry :
    let s := after (.recoveryExpiry 3) (recovering 1 [])
    (s.channel 3).state = .ready ∧ (s.channel 3).recovery = 0 ∧ (s.channel 3).faultFlag = true ∧
      after (.recoveryExpiry 3) (recovering 2 []) = recovering 2 [] := by decide +kernel

/-- Track A before the break of section 12.7. -/
def beforeBreak : State := looked (withItems
    [(12, { item .a 5 .onAir { words := 200, presenter := some 2, script := some 512 } with
        start := some 53563, prompterEnd := some 55300 }),
     (13, item .a 5 .ready { kind := .brk, planned := 1500, hardIn := some 56000 }), (14, {})]
    { gallery with
      sfc := 55997, orders := ⟨[15, 12, 13], []⟩
      tracks := ⟨{ onAir := some 12, ready := some 13, hardOut := some 58000, lockoutCount := 9, hostHold := true }, {}⟩
      due := [.sequencer .a] })

/-- Section 12.7: the hard-in take, whatever the lockout and the hold. -/
theorem test_hard_in_take :
    let s := after (.hardInTake .a) beforeBreak
    (s.slot 12).actual = some 2437 ∧ (s.slot 13).start = some 56000 ∧ (s.track .a).onAir = some 13 ∧ (s.track .a).ready = none ∧
      (s.slot 15).state = .planned ∧ (s.track .a).lockoutCount = 12 ∧
      (let x := looked { beforeBreak with sfc := 55996 }; after (.hardInTake .a) x = x) := by decide +kernel

/-- Section 12.8: the flags the host reads, and those left. -/
theorem test_event_read :
    let f : EventSet := { takeA := true, groupDone := true, channelFault := true, resetSeen := true }
    let s := after .eventRead { gallery with flags := f }
    s.buffer = .ready ⟨.ok, .events f gallery.mask⟩ ∧ s.flags = { resetSeen := true } ∧
      (after .eventAckReset { gallery with flags := f }).flags = { f with resetSeen := false } := by decide +kernel

/-! ### One small test for each other command -/

/-- R13, R12: a planned figure above its range is stored at its limit, and the key of a live item is refused. -/
theorem test_item_create :
    let s := after (.itemCreate 0 0xFFFF ⟨8800, 3, 0x12, 0, 0, 1048576, 77, 0⟩ []) gallery
    (s.slot 15).fields = { key := 8800, kind := .live, timed := true, planned := 1048575, hardIn := some 77 } ∧
      (s.slot 15).revision = 5 ∧ (s.slot 15).airing = 9 ∧ (s.order .a).head? = some 15 ∧
      s.buffer = .ready ⟨.clamped, .item 15 5⟩ ∧
      (after (.itemCreate 0 0xFFFF { newClip with key := 131 } []) gallery).buffer = .ready ⟨.duplicate, .empty⟩ := by
  decide +kernel

/-- R14, R15: words of the ON_AIR item are taken, its key is refused. -/
theorem test_item_update :
    (after (.itemUpdate 10 8 0x10 ⟨0, 0, 0, 0, 200, 0, 0, 0⟩) gallery).slot 10 =
        { gallery.slot 10 with revision := 9, fields := { (gallery.slot 10).fields with words := 200 } } ∧
      (after (.itemUpdate 10 8 1 ⟨500, 0, 0, 0, 200, 0, 0, 0⟩) gallery).buffer = .ready ⟨.onAir, .empty⟩ ∧
      (after (.itemUpdate 10 7 0x10 ⟨0, 0, 0, 0, 200, 0, 0, 0⟩) gallery).buffer = .ready ⟨.stale, .empty⟩ := by decide +kernel

/-- R16, R44: an item moved right after the ON_AIR item becomes READY, the one displaced PLANNED. -/
theorem test_item_move :
    let s := after (.itemMove 14 2 10) gallery
    s.order .a = [0, 1, 2, 3, 4, 5, 6, 7, 8, 9, 10, 14, 11, 12, 13] ∧ (s.track .a).ready = some 14 ∧
      (s.slot 14).state = .ready ∧ (s.slot 14).airing = 1 ∧ (s.slot 14).revision = 3 ∧ (s.slot 11).state = .planned ∧
      (s.slot 11).revision = 6 := by decide +kernel

/-- R17: the freed slot keeps its counters, advanced. -/
theorem test_item_retire :
    let s := after (.itemRetire 14 2) gallery
    s.slot 14 = { revision := 3, airing := 1 } ∧ s.order .a = [0, 1, 2, 3, 4, 5, 6, 7, 8, 9, 10, 11, 12, 13] ∧
      s.buffer = .ready ⟨.ok, .item 14 3⟩ ∧ s.entriesInUse = 1 := by decide +kernel

/-- R18: a DONE item is PLANNED again; a PLANNED one is refused. -/
theorem test_item_restore :
    ((after (.itemRestore 9 1) gallery).slot 9).state = .planned ∧ ((after (.itemRestore 9 1) gallery).slot 9).actual = none ∧
      (after (.itemRestore 14 2) gallery).buffer = .ready ⟨.state, .empty⟩ := by decide +kernel

/-- R19, R13: the offset of a READY cue is stored as 0; the cue of the READY item is armed, and sent to its idle channel. -/
theorem test_item_cues :
    let s := after (.itemCues 11 6 [⟨0x01, 9, 4101, 3⟩]) gallery
    (s.slot 11).cues.map (fun q => (q.spec.offset, q.state)) = [(0, .sent)] ∧ (s.slot 11).revision = 7 ∧ (s.slot 11).airing = 1 ∧
      (s.deviceTx.get 3).sending = some (.command 4 .play 3 .a) ∧ (s.channel 3).state = .busy := by decide +kernel

/-- R20, R21: a free slot is not found; a key gives its item. -/
theorem test_item_reads :
    (after (.itemRead 15) gallery).buffer = .ready ⟨.notFound, .empty⟩ ∧
      (after (.itemFind 131) gallery).buffer = .ready ⟨.ok, .item 31 1⟩ := by decide +kernel

/-- R22: the items after item 12, with F and B. -/
theorem test_rundown_list :
    (after (.rundownList 0 12 1) gallery).buffer =
      .ready ⟨.ok, .rundown [⟨13, 5, .planned, false, some 1500, some 56000, some 55500⟩] true⟩ := by decide +kernel

/-- R26, R37: opened, and discarded with its slot returned. -/
theorem test_group_open_and_discard :
    ((after (.groupOpen 3 1) gallery).group 3).state = .opened ∧ (after (.groupOpen 0 1) staged).buffer = .ready ⟨.state, .empty⟩ ∧
      (after (.groupDiscard 0) staged).slot 15 = { revision := 4, airing := 9 } ∧
      (after (.groupDiscard 0) staged).buffer = .ready ⟨.ok, .discarded 128⟩ := by decide +kernel

/-- R38: the record of a group. -/
theorem test_group_read :
    (after (.groupRead 0) staged).buffer =
      .ready ⟨.ok, .groupRead ⟨.opened, .a, none, none, [⟨1, 15, none⟩, ⟨4, 14, some 2⟩, ⟨2, 12, some 3⟩], [15], 2, .none, 125⟩⟩ := by
  decide +kernel

/-- R54: a skip passes the READY item and takes the next. -/
theorem test_track_skip :
    let s := after (.trackSkip 0) gallery
    (s.slot 11).state = .skipped ∧ (s.slot 11).revision = 7 ∧ s.buffer = .ready ⟨.ok, .skipped 11 (some 12)⟩ ∧
      s.prompterTx.sending = some (.loadScript 512 .a) := by decide +kernel

/-- R41, R42: a band below the hysteresis lowers it and answers CLAMPED; the hold is told with the panel's. -/
theorem test_track_config_and_hold :
    ((after (.trackConfig 0 4 ⟨0, 0, 10, 0, 0, 0⟩) gallery).track .a).hysteresis = 10 ∧
      ((after (.trackConfig 0 4 ⟨0, 0, 10, 0, 0, 0⟩) gallery).track .a).hardOut = some 58000 ∧
      (after (.trackHold 0 1) gallery).buffer = .ready ⟨.ok, .hold true false true⟩ := by decide +kernel

/-- R43: an ON_AIR item without auto has no auto-take. -/
theorem test_track_read :
    (after (.trackRead 0) gallery).buffer =
      .ready ⟨.ok, .trackRead ⟨gallery.track .a, false, false, .none, none, .overTime, some 500, []⟩⟩ := by decide +kernel

/-- R55: Track A back at its beginning, Track B as it was. -/
theorem test_track_reset :
    let s := after (.trackReset 0) gallery
    (s.slot 10).state = .planned ∧ (s.slot 10).revision = 9 ∧ (s.slot 10).start = none ∧ (s.track .a).ready = some 0 ∧
      s.order .a = gallery.order .a ∧ s.statusOf .a = .none ∧ s.track .b = gallery.track .b := by decide +kernel

/-- R68, R69. -/
theorem test_time :
    (after (.timeSet 7) gallery).buffer = .ready ⟨.ok, .timeSet 50000 7⟩ ∧
      (after .timeRead gallery).buffer = .ready ⟨.ok, .timeRead 50000 .flywheel .r25 (some 0)⟩ := by decide +kernel

/-- R87, R88: a slow shift below the fast shift lowers it; a seed is held to its range. -/
theorem test_presenter_config_and_seed :
    let s := after (.presenterConfig 2 4 ⟨0, 0, 0, 0, 0, 0, 0, 0, 0, 0, 0, 0, 0⟩)
      (gallery.setPresenter 2 { gallery.presenter 2 with fastShift := 2 })
    (s.presenter 2).slowShift = 1 ∧ (s.presenter 2).fastShift = 1 ∧
      (after (.presenterSeed 2 63) gallery).buffer = .ready ⟨.clamped, .seeded 64 0⟩ ∧
      (after (.presenterRead 2) gallery).buffer = .ready ⟨.ok, .presenterRead (gallery.presenter 2) 833⟩ := by decide +kernel

/-- R108: base 4,096 with mask 255 matches 4,096 to 4,351; R115: UNROUTED, with the entry passed over. -/
theorem test_route_test :
    (after (.routeTest 4351 1 0) gallery).buffer = .ready ⟨.ok, .routeTest (some ⟨.entry 2, (gallery.route 2).delivery⟩) none⟩ ∧
      (after (.routeTest 4352 1 0) gallery).buffer = .ready ⟨.ok, .routeTest none none⟩ ∧
      (after (.routeTest 4351 5 0) gallery).buffer = .ready ⟨.ok, .routeTest none (some 2)⟩ := by decide +kernel

/-- R111, R112, R114: a write of entry 0's mask clears GLOBAL, a value of 0 for the answer timeout is stored as 1. -/
theorem test_route_write :
    let s := after (.routeWrite 0 0x204 ⟨0, 0, 0xFFFF, 0, 0, ⟨0, 0, 0, 0, 0, 0, 0⟩⟩) gallery
    s.isGlobal = false ∧ (s.route 0).delivery.answerTimeout = 1 ∧
      (after (.routeRead 16) gallery).buffer = .ready ⟨.ok, .defaultRoute {}⟩ := by decide +kernel

/-- R134, R136: kind NONE takes the channel OFFLINE and fails its command and queue; another kind brings it back. -/
theorem test_channel_config :
    let s := after (.channelConfig 3 1 ⟨0, 0, 0, 0, 0⟩) answering
    (s.channel 3).state = .offline ∧ s.cuesDone = [⟨⟨15, 11, 0⟩, .failed .offline⟩] ∧
      (s.cue? 15 1).map (fun q => q.failCause) = some (some .offline) ∧
      ((after (.channelConfig 0 1 ⟨2, 0, 0, 0, 0⟩) gallery).channel 0).state = .ready ∧
      (after (.channelRead 3) gallery).buffer = .ready ⟨.ok, .channelRead ⟨.clip, .ready, .retry, 25, 100, 250, false, none, 3, none, [], 0, 0, 0, 0⟩⟩ := by decide +kernel

/-- R135: a clear ends the recovery and grants the head of the queue. -/
theorem test_channel_clear :
    let s := after (.channelClear 3) (recovering 200 [queuedAt 1 .play 52816])
    (s.channel 3).state = .busy ∧ (s.channel 3).faultFlag = false ∧ (s.channel 3).faultCause = some .timeout ∧
      s.buffer = .ready ⟨.ok, .channelCleared .busy⟩ := by decide +kernel

/-- R159, R67: the new rate restarts the flywheel's measure from the last frame event. -/
theorem test_part_config :
    let s := after (.partConfig 6 ⟨0, 3, 16, 0, ⟨0, 0, 0, 0, 0, 0, 0⟩⟩) { gallery with qualifying := 2, sinceFrame := 10, sinceTimer := 4 }
    s.frameRate = .r50 ∧ s.qualifying = 0 ∧ s.sinceTimer = 10 ∧ s.debounce = 15 ∧
      (after .partRead gallery).buffer = .ready ⟨.ok, .part ⟨gallery.mask, .r25, 2, {}, { resetSeen := true }⟩⟩ := by decide +kernel

/-- R160, R161: the held part, its end, and PART.RESET with its status byte. -/
theorem test_resets :
    (after .rstAssert gallery).held = true ∧ (after .rstAssert gallery).attnActive = false ∧
      after .rstRelease (after .powerOn gallery) = State.reset ∧ (after .partReset gallery).buffer = .ready ⟨.ok, .empty⟩ ∧
      (after .partReset gallery).summary = 0xD1 := by decide +kernel

/-- R151: length, code and size, in this order. -/
theorem test_framing :
    (after (.unknownRequest 2 [0xFF] false) gallery).buffer = .ready ⟨.frame, .empty⟩ ∧
      (after (.unknownRequest 2 [0xFF, 0] false) gallery).buffer = .ready ⟨.unknown, .empty⟩ ∧
      (after (.unknownRequest 2 [0x54, 0] false) gallery).buffer = .ready ⟨.frame, .empty⟩ ∧
      after (.unknownRequest 1 [0x54] false) gallery = after .partReset gallery := by decide +kernel

/-- Section 11.2: the bytes of a direct ITEM.CREATE with one cue, of a staged ITEM.RETIRE, of RUNDOWN.LIST and of ROUTE.TEST. -/
theorem test_request_bytes :
    requestOf 0x01 [0xFF, 0x00, 0x00, 0x0B, 0x00, 0x00, 0x22, 0x60, 0x01, 0x10, 0x00, 0x00, 0x00, 0x00, 0x02, 0xEE, 0x00, 0x00, 0xDA, 0xC0,
        0x00, 0x00, 0x00, 0x00, 0x01, 0x11, 0x00, 0x08, 0x10, 0x05, 0x00, 0x02] =
      some (.itemCreate 0 11 ⟨8800, 1, 0x10, 0, 0, 750, 56000, 0⟩ [⟨0x11, 8, 4101, 2⟩]) ∧
      requestOf 0x04 [0x00, 0x00, 0x0E, 0x00, 0x02] = some (.stagedEdit 0 (.retire 14 2)) ∧
      requestOf 0x09 [0x01, 0x01, 0xFF, 0x10] = some (.rundownList 1 511 16) ∧
      requestOf 0x3A [0x10, 0x05, 0x01, 0x00] = some (.routeTest 4101 1 0) ∧ requestOf 0x0A [] = none := by decide +kernel

/-- The widths of the settings requests fill their bodies (section 11.2). -/
theorem test_settings_fill_their_bodies :
    [some trackWidths.sum, some presenterWidths.sum, some routeWidths.sum, some channelWidths.sum, some partWidths.sum] =
      [fixedSize 0x23, fixedSize 0x30, fixedSize 0x38, fixedSize 0x40, fixedSize 0x52] := by decide +kernel

/-- R150, R151: the bytes of TRACK.TAKE make the take, with a fill byte shifted out for each. -/
theorem test_written_take :
    after (.unknownRequest 2 [0x20, 0x00] false) gallery = after (.trackTake 0) gallery ∧
      (after (.trackTake 0) gallery).sdo = [0x00, 0x00] := by decide +kernel

/-- R153: a short read leaves the response, a whole one consumes it and goes on with fill bytes. -/
theorem test_read_transaction :
    let s := { gallery with buffer := .ready ⟨.noNext, .empty⟩ }
    (after (.readTransaction (.upTo 2)) s).sdo = [0x0D] ∧ (after (.readTransaction (.upTo 2)) s).buffer = s.buffer ∧
      (after (.readTransaction (.whole 2)) s).sdo = [0x0D, 0, 0, 0] ∧ (after (.readTransaction (.whole 2)) s).buffer = .empty := by
  decide +kernel

/-- A nominal period at 25 frames per second, in quarters of a crystal period of 27 MHz: 4 times 1,080,000. -/
def period25 : Nat := 4320000

/-- R66: the fourth pulse of a run relocks; R65: a pulse less than half a period after a frame event is disregarded. -/
theorem test_ref_pulse :
    let s := after (.refPulse period25 ⟨0, []⟩) { gallery with qualifying := 3, lastTick := false }
    s.reference = .locked ∧ s.qualifying = 0 ∧ s.flags.reference = true ∧ s.sfc = 50001 ∧
      (after (.refPulse (period25 / 2 - 1) ⟨0, []⟩) { gallery with reference := .locked }).sfc = 50000 := by decide +kernel

/-- R65, R66: the loss of the reference is the first tick. -/
theorem test_own_frame_events :
    let s := after (.referenceLoss ⟨0, []⟩) { gallery with reference := .locked }
    s.reference = .flywheel ∧ s.sfc = 50001 ∧ s.flags.reference = true ∧
      (after (.flywheelTick ⟨0, []⟩) gallery).sfc = 50001 ∧ (after (.referenceLoss ⟨0, []⟩) gallery) = gallery := by decide +kernel

/-- Section 12.3: the lockout of the take at 50,310 is not counted in that frame event's work, so that it ends at 50,322. -/
theorem test_lockout_of_a_press :
    let s := after (.panelDebounceExpiry 0) { takeDue with due := [.panel 0, .sequencer .a] }
    (s.track .a).lockoutCount = 12 ∧ s.cut = ⟨true, false⟩ ∧ ((s.runWork (.sequencer .a)).track .a).lockoutCount = 12 ∧
      (after (.flywheelTick ⟨0, [.sequencer .a]⟩) s).sfc = 50311 ∧
      ((after (.flywheelTick ⟨0, [.sequencer .a]⟩) s).track .a).lockoutCount = 11 := by decide +kernel

/-- R49: a lockout of 1 runs out. -/
theorem test_lockout_expiry :
    let s := { gallery.setTrack .a { gallery.track .a with lockoutCount := 1 } with due := [.sequencer .a] }
    ((after (.lockoutExpiry .a) s).track .a).lockoutCount = 0 ∧ (after (.lockoutExpiry .a) s).due = [] := by decide +kernel

/-- Item 10 with auto yes, its auto-take frame 49,000 + 1,250 − 3 reached. -/
def autoDue : State := looked
  { gallery.setSlot 10 { gallery.slot 10 with fields := { (gallery.slot 10).fields with auto := true } } with
    sfc := 50247, due := [.sequencer .a] }

/-- R51: the auto-take at its frame, and not a frame before or with the hold on. -/
theorem test_auto_take :
    ((after (.autoTake .a) autoDue).track .a).onAir = some 11 ∧ ((after (.autoTake .a) autoDue).slot 11).start = some 50250 ∧
      (let x := looked { autoDue with sfc := 50246 }; after (.autoTake .a) x = x) ∧
      (let s := autoDue.setTrack .a { autoDue.track .a with hostHold := true }; after (.autoTake .a) s = s) := by decide +kernel

/-- Channel 3 BUSY with a TIMED command of dwell 5 and guard 2. -/
def timed (busy : Nat) : State :=
  { preloaded.setChannel 3 { preloaded.channel 3 with
      queue := [], command := some ⟨⟨15, 11, 0⟩, .a, .load, 1, .timed, 5, 10, 2, 5, 52811, busy⟩ } with
    due := [.channel 3] }

/-- R124, R125: the dwell is reached, and the guard runs. -/
theorem test_dwell_expiry :
    ((after (.dwellExpiry 3) (timed 4)).channel 3).state = .guard ∧ ((after (.dwellExpiry 3) (timed 4)).channel 3).guard = 2 ∧
      (after (.dwellExpiry 3) (timed 4)).cuesDone = [⟨⟨15, 11, 0⟩, .done⟩] ∧ after (.dwellExpiry 3) (timed 3) = timed 3 := by
  decide +kernel

/-- Channel 3 in GUARD with its LOAD still waiting. -/
def guarding (count : Nat) : State :=
  { preloaded.setChannel 3 { preloaded.channel 3 with state := .guard, command := none, guard := count } with due := [.channel 3] }

/-- R122: the guard runs out and the head of the queue is sent. -/
theorem test_guard_expiry :
    ((after (.guardExpiry 3) (guarding 1)).channel 3).state = .busy ∧ after (.guardExpiry 3) (guarding 2) = guarding 2 := by
  decide +kernel

/-- R122: a guard of 1 begun ahead of its channel's frame work is not counted at that frame event, and ends at the next. -/
theorem test_guard_begun_ahead :
    let s := preloaded.setChannel 3 { (guarding 1).channel 3 with begun := true }
    let first := s.runWork (.channel 3)
    (first.channel 3).guard = 1 ∧ (first.channel 3).state = .guard ∧
      ((first.runWork (.channel 3)).channel 3).state = .busy := by decide +kernel

/-- Channel 3 READY with its silent and poll counts. -/
def idle (silent poll : Nat) : State :=
  { gallery.setChannel 3 { gallery.channel 3 with silent := silent, poll := poll } with due := [.channel 3] }

/-- R127, R128: a POLL at the interval; a SILENT fault at the limit, in RETRY mode. -/
theorem test_poll_and_silent_fault :
    ((after (.poll 3) (idle 0 24)).deviceTx.get 3).sending = some .poll ∧ ((after (.poll 3) (idle 0 24)).channel 3).poll = 0 ∧
      after (.poll 3) (idle 0 23) = idle 0 23 ∧ ((after (.silentFault 3) (idle 99 0)).channel 3).state = .recovering ∧
      ((after (.silentFault 3) (idle 99 0)).channel 3).faultCause = some .silent ∧ after (.silentFault 3) (idle 98 0) = idle 98 0 := by
  decide +kernel

/-- R126: REFUSE ends the command, STATUS ERROR enters a fault, another frame is heard. -/
theorem test_device_frames :
    (after (.refuse 3 5) answering).cuesDone = [⟨⟨15, 11, 0⟩, .failed .refused⟩] ∧
      ((after (.status 3 2) answering).channel 3).faultCause = some .deviceError ∧
      after (.status 3 1) (idle 40 0) = idle 0 0 ∧ after (.deviceFrameOther 3 0x90 [1, 2]) (idle 40 0) = idle 0 0 := by decide +kernel

/-- Section 11.3: the bytes of an ACCEPT with tag 4, and of one whose check fails, arriving whole. -/
theorem test_link_bytes :
    linkFrame 0x81 [4] = [0xC3, 0x81, 0x01, 0x04, 0x7A] ∧
      after (.discardedLinkFrame (.device 3) [0xC3, 0x81, 0x01, 0x04, 0x7B]) answering = answering ∧
      (after (.discardedLinkFrame (.device 3) [0x11, 0xC3, 0x81]) answering).rx (.device 3) = .taking [0x81] := by decide +kernel

/-- R164: the next frame of the queue is taken when one is sent. -/
theorem test_link_transmit_done :
    let s := { gallery with displayTx := ⟨some .poll, [.go 1 .a, .go 2 .a]⟩ }
    (after (.linkTransmitDone .display) s).displayTx = ⟨some (.go 1 .a), [.go 2 .a]⟩ := by decide +kernel

/-- R139, R141, R144: the presenter of the READY item is on STANDBY, its pattern dark from phase 12, with one DISPLAY frame. -/
theorem test_lights :
    let s := (gallery.setTrack .a { gallery.track .a with onAir := none, ready := some 12 }).setLight 2 ⟨.standby, 11, true, false⟩
    (s.runWork .outputs).light 2 = ⟨.standby, 12, false, false⟩ ∧ (s.runWork .outputs).rotation = 3 ∧
      (s.runWork .outputs).displayTx.sending = some (.display 2 .standby 3 .r25) ∧
      ((gallery.runWork .outputs).light 2).shown = .wrap := by decide +kernel

/-- The table gives no bits, so no word spells a command. -/
theorem test_no_word_spells_a_command : decodeTableWord 0 0 = none ∧ decodeTableWord 64 0xFFFF = none := by decide +kernel

/-! ### Well-formedness (an ill-formed term for each check) -/

/-- A block, settings and delivery fields that fit their frames. -/
def okDelivery : RawDelivery := ⟨0, 0, 0, 0, 1, 0, 0⟩

theorem test_wellFormed_refuses_numbers_too_long :
    ∀ c ∈ ([.itemCreate 256 0 newClip [], .itemCreate 0 65536 newClip [], .itemUpdate 65536 0 1 newClip, .itemUpdate 0 65536 1 newClip,
        .itemUpdate 0 0 65536 newClip, .itemMove 0 0 65536, .itemMove 65536 0 0, .itemMove 0 65536 0, .itemRetire 65536 0,
        .itemRetire 0 65536, .itemRestore 65536 0, .itemRestore 0 65536, .itemCues 65536 0 [], .itemCues 0 65536 [],
        .itemRead 65536, .itemFind (2 ^ 32), .rundownList 256 0 1, .rundownList 0 65536 1, .rundownList 0 0 256, .groupOpen 256 0,
        .groupOpen 0 256, .groupLaunch 256 0, .groupLaunch 0 256, .groupDiscard 256, .groupRead 256, .trackTake 256, .trackSkip 256,
        .trackHold 256 0, .trackHold 0 256, .trackConfig 256 1 ⟨0, 0, 0, 0, 0, 0⟩, .trackConfig 0 65536 ⟨0, 0, 0, 0, 0, 0⟩,
        .trackRead 256, .trackReset 256, .timeSet (2 ^ 32), .presenterSeed 256 0, .presenterSeed 0 65536, .presenterRead 256,
        .routeRead 256, .routeTest 65536 0 0, .routeTest 0 256 0, .routeTest 0 0 256, .channelClear 256, .channelRead 256] : List Instr),
      c.wellFormed = false := by decide +kernel

theorem test_wellFormed_refuses_fields_too_long :
    ∀ c ∈ ([.itemCreate 0 0 { newClip with key := 2 ^ 32 } [], .itemCreate 0 0 { newClip with kind := 256 } [],
        .itemCreate 0 0 { newClip with flags := 256 } [], .itemCreate 0 0 { newClip with presenter := 256 } [],
        .itemCreate 0 0 { newClip with words := 65536 } [], .itemCreate 0 0 { newClip with planned := 2 ^ 24 } [],
        .itemCreate 0 0 { newClip with hardIn := 2 ^ 32 } [], .itemCreate 0 0 { newClip with script := 2 ^ 32 } [],
        .itemCues 0 0 [⟨256, 0, 0, 0⟩], .itemCues 0 0 [⟨0, 65536, 0, 0⟩], .itemCues 0 0 [⟨0, 0, 65536, 0⟩],
        .itemCues 0 0 [⟨0, 0, 0, 65536⟩], .trackConfig 0 1 ⟨2 ^ 32, 0, 0, 0, 0, 0⟩, .trackConfig 0 1 ⟨0, 2 ^ 32, 0, 0, 0, 0⟩,
        .trackConfig 0 1 ⟨0, 0, 2 ^ 32, 0, 0, 0⟩, .trackConfig 0 1 ⟨0, 0, 0, 2 ^ 32, 0, 0⟩,
        .trackConfig 0 1 ⟨0, 0, 0, 0, 2 ^ 32, 0⟩, .trackConfig 0 1 ⟨0, 0, 0, 0, 0, 256⟩,
        .presenterConfig 256 1 ⟨0, 0, 0, 0, 0, 0, 0, 0, 0, 0, 0, 0, 0⟩, .presenterConfig 0 65536 ⟨0, 0, 0, 0, 0, 0, 0, 0, 0, 0, 0, 0, 0⟩,
        .presenterConfig 0 1 ⟨256, 0, 0, 0, 0, 0, 0, 0, 0, 0, 0, 0, 0⟩, .presenterConfig 0 1 ⟨0, 0, 0, 0, 0, 0, 0, 0, 0, 0, 0, 0, 256⟩,
        .routeWrite 256 1 ⟨0, 0, 0, 0, 0, okDelivery⟩, .routeWrite 0 65536 ⟨0, 0, 0, 0, 0, okDelivery⟩,
        .routeWrite 0 1 ⟨256, 0, 0, 0, 0, okDelivery⟩, .routeWrite 0 1 ⟨0, 65536, 0, 0, 0, okDelivery⟩,
        .routeWrite 0 1 ⟨0, 0, 65536, 0, 0, okDelivery⟩, .routeWrite 0 1 ⟨0, 0, 0, 256, 0, okDelivery⟩,
        .routeWrite 0 1 ⟨0, 0, 0, 0, 256, okDelivery⟩, .routeWrite 0 1 ⟨0, 0, 0, 0, 0, { okDelivery with channel := 256 }⟩,
        .routeWrite 0 1 ⟨0, 0, 0, 0, 0, { okDelivery with mode := 256 }⟩, .routeWrite 0 1 ⟨0, 0, 0, 0, 0, { okDelivery with dwell := 2 ^ 32 }⟩,
        .channelConfig 256 1 ⟨0, 0, 0, 0, 0⟩, .channelConfig 0 65536 ⟨0, 0, 0, 0, 0⟩, .channelConfig 0 1 ⟨256, 0, 0, 0, 0⟩,
        .channelConfig 0 1 ⟨0, 256, 0, 0, 0⟩, .channelConfig 0 1 ⟨0, 0, 2 ^ 32, 0, 0⟩, .partConfig 65536 ⟨0, 0, 1, 0, okDelivery⟩,
        .partConfig 1 ⟨65536, 0, 1, 0, okDelivery⟩, .partConfig 1 ⟨0, 256, 1, 0, okDelivery⟩, .partConfig 1 ⟨0, 0, 2 ^ 32, 0, okDelivery⟩,
        .partConfig 1 ⟨0, 0, 1, 256, okDelivery⟩] : List Instr), c.wellFormed = false := by decide +kernel

/-- A staged edit's group byte, a list that the length byte cannot count, a frame of another row, a block named twice at one
frame event, and bytes that make a valid frame. -/
theorem test_wellFormed_refuses_what_another_row_is :
    ∀ c ∈ ([.stagedEdit 255 (.retire 0 0), .stagedEdit 256 (.retire 0 0), .stagedEdit 0 (.retire 65536 0),
        .itemCues 0 0 (List.replicate 36 ⟨0, 0, 0, 0⟩), .itemCreate 0 0 newClip (List.replicate 33 ⟨0, 0, 0, 0⟩),
        .unknownRequest 0 [] false, .unknownRequest 256 [] false, .unknownRequest 1 [0x54] false, .readTransaction (.upTo 0),
        .refPulse 0 ⟨0, [.outputs, .outputs]⟩, .flywheelTick ⟨0, [.outputs, .outputs]⟩, .referenceLoss ⟨0, [.outputs, .outputs]⟩,
        .deviceFrameOther 0 0x81 [], .deviceFrameOther 0 0x90 (List.replicate 256 0),
        .discardedLinkFrame (.device 0) (linkFrame 0x81 [4])] : List Instr), c.wellFormed = false := by decide +kernel

theorem test_wellFormed_accepts :
    ∀ c ∈ ([.itemCreate 255 65535 newClip newCues, .stagedEdit 254 (.retire 0 0), .itemCues 0 0 (List.replicate 35 ⟨0, 0, 0, 0⟩),
        .unknownRequest 255 [] false, .readTransaction (.upTo 1), .refPulse 0 ⟨0, [.outputs]⟩, .deviceFrameOther 0 0x90 [],
        .discardedLinkFrame (.device 0) [0xC3, 0x81, 0x01, 0x04, 0x7B]] : List Instr), c.wellFormed = true := by decide +kernel

/-! ### States and operands that meet the hypotheses of the statements -/

/-- The port with an unread answer, and the part held in reset. -/
def unread : State := { State.reset with buffer := .ready ⟨.ok, .empty⟩ }
def heldReset : State := { State.reset with held := true }

theorem witness_RequestIsDroppedOrAnswered :
    (Instr.isRequest .timeRead = true ∧ Instr.wellFormed .timeRead = true ∧ unread.held = false ∧ unread.buffer ≠ .empty) ∧
      State.reset.held = false ∧ State.reset.buffer = .empty := by decide +kernel

theorem witness_ResetsReturnThePart :
    (heldReset.held = true ∧ Instr.timeRead ≠ .powerOn ∧ Instr.timeRead ≠ .rstAssert ∧ Instr.timeRead ≠ .rstRelease) ∧
      State.reset.held = false ∧ State.reset.portFree := by
  unfold State.portFree; decide +kernel

theorem witness_ReadTransactionDeliversResponse :
    (unread.held = false ∧ unread.buffer = .ready ⟨.ok, .empty⟩ ∧ 0 < (Answer.bytes ⟨.ok, .empty⟩).length ∧
        1 < (Answer.bytes ⟨.ok, .empty⟩).length) ∧
      State.reset.held = false ∧ ∀ a, State.reset.buffer ≠ .ready a :=
  ⟨by decide +kernel, by decide +kernel, fun _ h => nomatch h⟩

theorem witness_FramingErrorsAreAnswered :
    (State.reset.portFree ∧ 0 < 1 ∧ ([] : List Byte).length ≠ 1) ∧ (true = true ∨ ([0] : List Byte).length ≠ 1) ∧
      ((0x55 : Byte).toNat ∉ [0x01, 0x02, 0x03, 0x04, 0x05, 0x06, 0x07, 0x08, 0x09, 0x10, 0x11, 0x12, 0x13, 0x20, 0x21, 0x22, 0x23,
          0x24, 0x25, 0x28, 0x29, 0x30, 0x31, 0x32, 0x38, 0x39, 0x3A, 0x40, 0x41, 0x42, 0x50, 0x51, 0x52, 0x53, 0x54] ∧
        ([0x55] : List Byte).length = 1) ∧
      (((0x54 : Byte).toNat, 0) ∈ [(0x53, 0), (0x54, 0)] ∧ ([0] : List Byte).length ≠ 0) ∧
      (∀ n : Byte, ([0, 0, 0, 0, 0, 0, 0] : List Byte)[6 - 1]? = some n → ([0, 0, 0, 0, 0, 0, 0] : List Byte).length ≠ 6 + 7 * n.toNat) ∧
      ∀ n : Byte, ([] : List Byte)[25 - 1]? = some n → ([] : List Byte).length ≠ 25 + 7 * n.toNat := by
  unfold State.portFree
  refine ⟨by decide +kernel, by decide, by decide, by decide, ?_, nofun⟩
  intro n h
  cases h
  decide

/-- A write that passes the framing checks. -/
theorem witness_FramingErrorsAreAnswered_spelled : framing 2 [0x20, 0x00] false = none := by decide +kernel

theorem witness_SummaryStatusShowsStandingState :
    State.reset.held = false ∧ Instr.wellFormed .timeRead = true ∧ Instr.isRequest .timeRead = true ∧
      Instr.wellFormed (.readTransaction (.upTo 1)) = true := by decide +kernel

/-- Every event flag set. -/
def flagged : State := { State.reset with flags := State.reset.mask }

theorem witness_EventReadAndAckResetClearFlags :
    State.reset.portFree ∧
      ((∃ t, exec .eventRead flagged = .next t) ∧ (Instr.spelled .eventRead).isReset = false ∧ flagged.flags.get .resetSeen = true) ∧
      ((∃ t, exec .eventAckReset flagged = .next t) ∧ (Instr.spelled .eventAckReset).isReset = false ∧
        flagged.flags.get .takeA = true ∧ Event.takeA ≠ .resetSeen) ∧
      ((∃ t, exec (.unknownRequest 1 [0x50] false) flagged = .next t) ∧ Instr.spelled (.unknownRequest 1 [0x50] false) = .eventRead) ∧
      (∃ t, exec .timeRead flagged = .next t) ∧ (Instr.spelled .timeRead).isReset = false ∧ Instr.spelled .timeRead ≠ .eventRead := by
  unfold State.portFree
  refine ⟨?_, ⟨⟨_, rfl⟩, ?_⟩, ⟨⟨_, rfl⟩, ?_⟩, ⟨⟨_, rfl⟩, ?_⟩, ⟨_, rfl⟩, ?_⟩ <;> decide +kernel

theorem witness_RequestBytesSpellTheirCommand :
    (Instr.wellFormed (.itemCreate 0 11 newClip newCues) = true ∧ ∃ l, (Instr.itemCreate 0 11 newClip newCues).written = some l) ∧
      (Instr.wellFormed (.stagedEdit 254 (.cues 65535 65535 newCues)) = true ∧
        ∃ l, (Instr.stagedEdit 254 (.cues 65535 65535 newCues)).written = some l) ∧
      Instr.wellFormed .partReset = true ∧ Instr.written .partReset = some [0x54] :=
  ⟨⟨by decide +kernel, _, rfl⟩, ⟨by decide +kernel, _, rfl⟩, by decide +kernel, rfl⟩

/-- The gallery with its cue pool drawn to the last entry by item 9. -/
def full : State := gallery.setSlot 9 { gallery.slot 9 with cues := List.replicate 2046 (playCue 0).fresh }

theorem witness_WritesAreCheckedInOrder :
    (gallery.portFree ∧ editFormBad (.move 512 2 0xFFFF) ∧ editFormBad (.move 14 2 512)) ∧
      (¬editFormBad (.move 15 0 0xFFFF) ∧ editNames (.move 15 0 0xFFFF) = some ((15 : Slot).val, 0) ∧ (gallery.slot 15).isLive = false) ∧
      (¬editFormBad (.move 14 3 0xFFFF) ∧ (gallery.slot 14).isLive = true ∧ (gallery.slot 14).revision ≠ BitVec.ofNat 16 3) ∧
      (¬editFormBad (.retire 10 8) ∧ (gallery.slot 10).revision = BitVec.ofNat 16 8 ∧ gallery.airs 10) ∧
      (¬editFormBad (.update 10 8 4 { newClip with flags := 1 }) ∧ (4).testBit 2 = true ∧ (1).testBit 0 = true) ∧
      (¬editFormBad (.restore 14 2) ∧ (gallery.slot 14).revision = BitVec.ofNat 16 2 ∧ ¬gallery.airs 14 ∧
        (gallery.slot 14).state = .planned ∧ (gallery.slot 11).state = .ready) ∧
      (¬editFormBad (.move 14 2 30) ∧ gallery.anchorBad (gallery.slot 14).track (some 14) (30 : Slot).val ∧
        gallery.anchorBad (gallery.slot 14).track (some 14) (14 : Slot).val) ∧
      (¬editFormBad (.update 14 2 1 { newClip with key := 131 }) ∧ (1).testBit 0 = true ∧ gallery.keyTaken 131 (some 14)) ∧
      (¬editFormBad (.cues 14 2 newCues) ∧ full.freeEntries + (full.slot 14).cues.length < newCues.length) ∧
      (¬editFormBad (.create (trackCode .a) 30 newClip []) ∧ gallery.anchorBad .a none (30 : Slot).val) ∧
      (¬editFormBad (.create (trackCode .a) 0xFFFF { newClip with key := 131 } []) ∧ gallery.keyTaken 131 none) ∧
      ¬editFormBad (.create (trackCode .a) 0xFFFF newClip [⟨0, 0, 0, 0⟩]) ∧ full.portFree ∧ ¬full.keyTaken newClip.key none ∧
        full.freeEntries < 1 := by
  simp only [State.keyTaken_iff, State.anchorBad_slot]
  dsimp only [State.portFree, editFormBad, anchorFormBad, cueFormBad, State.airs]
  refine ⟨?_, ?_, ?_, ?_, ?_, ?_, ?_, ?_, ?_, ?_, ?_, ?_⟩ <;> decide +kernel

theorem witness_ItemCreateMakesTheLowestFreeSlotLive :
    (gallery.portFree ∧ ¬editFormBad (.create (trackCode .a) (anchorCode (some 11)) newClip newCues)) ∧
      ¬gallery.anchorBad .a none (anchorCode (some 11)) ∧ ¬gallery.keyTaken newClip.key none ∧
      ((gallery.slot 15).condition = .free ∧ ∀ j, j < 15 → (gallery.slot j).condition ≠ .free) ∧
      newCues.length ≤ gallery.freeEntries ∧ (15 : Slot) ∉ gallery.candidates .a ∧
      ((after (.itemCreate 0 11 newClip newCues) gallery).track .a).ready = (gallery.track .a).ready ∧
      ((after (.itemCreate 0 10 newClip newCues) gallery).track .a).ready = some 15 ∧ (gallery.track .a).ready ≠ some 15 := by
  simp only [State.keyTaken_iff, ← State.anchorOk_iff, ← State.lowestFree_eq]
  dsimp only [State.portFree, editFormBad, anchorFormBad, cueFormBad]
  decide +kernel

theorem witness_ItemUpdateChangesTheNamedFields :
    (gallery.portFree ∧ ¬editFormBad (.update (10 : Slot).val (gallery.slot 10).revision.toNat 0x210 newClip) ∧
        (gallery.slot 10).isLive = true ∧ gallery.airs 10 ∧ (0x210).testBit 0 = false ∧ (0x210).testBit 1 = false ∧
        (0x210).testBit 2 = false) ∧
      (¬editFormBad (.update (12 : Slot).val (gallery.slot 12).revision.toNat 5 { newClip with flags := 1 }) ∧
        (gallery.slot 12).isLive = true ∧ ¬gallery.airs 12 ∧ ¬gallery.keyTaken newClip.key (some 12) ∧ (5).testBit 2 = true ∧
        (1).testBit 0 ≠ (gallery.slot 12).fields.floated) ∧
      (12 : Slot) ∈ gallery.candidates .a ∧ (10 : Slot) ∉ gallery.candidates .a := by
  simp only [State.keyTaken_iff]
  dsimp only [State.portFree, editFormBad, State.airs]
  decide +kernel

/-- An edit that leaves the READY item of Track A as it was. -/
def keepsReady (c : Instr) : Bool := decide (((after c gallery).track .a).ready = (gallery.track .a).ready)

theorem witness_ItemMoveChangesTheOrder :
    gallery.portFree ∧ (gallery.slot 14).isLive = true ∧ ¬gallery.airs 14 ∧
      ¬gallery.anchorBad (gallery.slot 14).track (some 14) (anchorCode (some 11)) ∧
      ¬gallery.anchorBad (gallery.slot 14).track (some 14) (anchorCode none) ∧ keepsReady (.itemMove 14 2 11) = true ∧
      ((gallery.slot 9).isLive = true ∧ ¬gallery.airs 9 ∧ (9 : Slot) ∉ gallery.candidates (gallery.slot 9).track) := by
  simp only [← State.anchorOk_iff]
  dsimp only [State.portFree, State.airs]
  decide +kernel

theorem witness_ItemRetireFreesTheSlot :
    gallery.portFree ∧ (gallery.slot 14).isLive = true ∧ ¬gallery.airs 14 ∧ gallery.noneWaiting 14 ∧
      keepsReady (.itemRetire 14 2) = true := by
  dsimp only [State.portFree, State.airs, State.noneWaiting]
  decide +kernel

theorem witness_ItemRestoreReturnsTheItem :
    gallery.portFree ∧ (gallery.slot 9).isLive = true ∧ ¬gallery.airs 9 ∧ (gallery.slot 9).state ≠ .planned ∧
      (gallery.slot 9).state ≠ .ready ∧ gallery.noneWaiting 9 ∧ keepsReady (.itemRestore 9 1) = true ∧ gallery.QueuesIdle ∧
      (9 : Slot) ∉ gallery.candidates (gallery.slot 9).track ∧
      ((after (.itemRestore 9 1) gallery).track .a).ready ≠ some 9 := by
  dsimp only [State.portFree, State.airs, State.noneWaiting, State.QueuesIdle]
  decide +kernel

theorem witness_ItemCuesReplacesTheList :
    gallery.portFree ∧ (gallery.slot 14).isLive = true ∧ ¬gallery.airs 14 ∧ (List.replicate 8 newCues).flatten.length ≤ 16 ∧
      (∀ c ∈ (List.replicate 8 newCues).flatten, ¬cueFormBad c) ∧
      (List.replicate 8 newCues).flatten.length ≤ gallery.freeEntries + (gallery.slot 14).cues.length ∧ gallery.noneWaiting 14 ∧
      (gallery.track .a).ready ≠ some 14 ∧ (gallery.slot 11).isLive = true ∧ ¬gallery.airs 11 ∧ gallery.QueuesIdle ∧
      (gallery.track (gallery.slot 11).track).ready = some 11 := by
  dsimp only [State.portFree, State.airs, State.noneWaiting, State.QueuesIdle, cueFormBad]
  decide +kernel

/-- One live item. -/
def single : State := State.reset.setSlot 0 (item .a 1 .planned { key := 9 })

theorem single_keysDistinct : single.KeysDistinct := by
  intro i j hi hj _
  have h : ∀ k, (single.slot k).isLive = true → k = 0 := by
    rw [State.forall_entry (p := fun k x => x.isLive = true → k = 0)]
    decide +kernel
  rw [h i hi, h j hj]

theorem witness_ItemTableReadsReport :
    (single.portFree ∧ single.KeysDistinct ∧ (0 < 9 ∧ 9 < 2 ^ 32) ∧ (single.slot 0).isLive = true ∧
        (single.slot 0).fields.key = BitVec.ofNat 32 9) ∧
      (single.slot 1).isLive = false ∧ (∀ i, (single.slot i).isLive = true → (single.slot i).fields.key ≠ BitVec.ofNat 32 (2 ^ 32 - 1)) ∧
      (gallery.portFree ∧ (0xFFFF = 0xFFFF ∧ gallery.order .b = [30, 31, 32])) ∧
      ((gallery.slot 31).isLive = true ∧ (gallery.slot 31).track = .b ∧ 31 ∉ ([30] : List Slot) ∧ gallery.order .b = [30] ++ 31 :: [32]) ∧
      anchorFormBad 512 ∧ anchorFormBad 0xFFFE ∧ gallery.anchorBad .a none (30 : Slot).val ∧ gallery.anchorBad .a none (511 : Slot).val := by
  rw [State.forall_entry (p := fun _ x => x.isLive = true → x.fields.key ≠ BitVec.ofNat 32 (2 ^ 32 - 1))]
  simp only [State.anchorBad_slot]
  dsimp only [State.portFree, anchorFormBad]
  refine ⟨⟨by decide +kernel, single_keysDistinct, by decide +kernel⟩, ?_⟩
  decide +kernel

theorem witness_ReadyChoiceTakesTheFirstCandidate :
    ((gallery.setTrack .a { gallery.track .a with onAir := none }).track .a).onAir = none ∧
      ((gallery.track .b).onAir = some 30 ∧ gallery.order .b = [] ++ 30 :: [31, 32] ∧ 30 ∉ ([] : List Slot)) ∧
      (gallery.candidates .a).head? = (gallery.track .a).ready ∧
      (let s := gallery.setTrack .a { gallery.track .a with ready := some 14 }
       (s.candidates .a).head? = some 12 ∧ (s.track .a).ready ≠ some 12 ∧ (s.track .a).ready = some 14 ∧
         (s.candidates .a).head? ≠ some 14) ∧
      (let s := gallery.setOrder .a [10, 14, 11]
       (s.candidates .a).head? = some 14 ∧ (s.track .a).ready = some 11 ∧ (s.slot 11).state = .ready ∧ s.QueuesIdle) ∧
      (let s := gallery.setOrder .a [10]
       (s.candidates .a).head? = none ∧ (s.track .a).ready = some 11 ∧ s.QueuesIdle) := by
  dsimp only [State.QueuesIdle]; decide +kernel

/-! ### Groups -/

/-- Group 0 ARMED, alone in the queue of Track A. -/
def armed : State := (staged.setGroup 0 { staged.group 0 with state := .armed }).setArmed .a [0]

/-- The gallery with group 0 OPEN and the staging pool drawn to the last entry by group 3. -/
def unstaging : State := opened.setGroup 3 { state := .opened, edits := List.replicate 128 ⟨14, some 2, .retire⟩ }

theorem witness_GroupOpenDiscardAndRead :
    (gallery.portFree ∧ (gallery.group 3).state = .idle ∧ (opened.group 0).state ≠ .idle) ∧
      (opened.portFree ∧ (opened.group 0).state = .opened) ∧ (armed.portFree ∧ (armed.group 0).state = .armed ∧
        armed.armedQueue (armed.group 0).track = [] ++ 0 :: [] ∧ 0 ∉ ([] : List GroupNo)) ∧
      (15 : Slot) ∈ (staged.group 0).reserved ∧ (14 : Slot) ∉ (staged.group 0).reserved := by
  dsimp only [State.portFree]; decide +kernel

theorem witness_StagedEditsAreCheckedInOrder :
    (opened.portFree ∧ editFormBad (.retire 512 0) ∧ (4 ≤ 4 ∧ 4 ≠ 255) ∧ (4 ≤ 254 ∧ 254 ≠ 255)) ∧
      (¬editFormBad (.retire 14 2) ∧ (gallery.group 0).state ≠ .opened) ∧
      ((opened.group 0).state = .opened ∧ ¬editFormBad (.create (trackCode .b) 0xFFFF newClip []) ∧ Track.b ≠ (opened.group 0).track) ∧
      (¬editFormBad (.create (trackCode .a) 30 newClip []) ∧ opened.stagedAnchorBad 0 none (30 : Slot).val) ∧
      (¬editFormBad (.create (trackCode .a) 0xFFFF { newClip with key := 131 } []) ∧ opened.keyTaken 131 none) ∧
      (¬editFormBad (.create (trackCode .a) 0xFFFF newClip []) ∧ ¬opened.keyTaken newClip.key none ∧ unstaging.freeStaging = 0) ∧
      (editNames (.retire 15 0) = some ((15 : Slot).val, 0) ∧ (15 : Slot) ∉ (opened.group 0).reserved ∧ (opened.slot 15).isLive = false) ∧
      (editNames (.retire 32 1) = some ((32 : Slot).val, 1) ∧ (opened.slot 32).isLive = true ∧
        (opened.slot 32).track ≠ (opened.group 0).track) ∧
      (editNames (.retire 14 3) = some ((14 : Slot).val, 3) ∧ (opened.slot 14).isLive = true ∧
        (opened.slot 14).track = (opened.group 0).track ∧ (opened.slot 14).revision ≠ BitVec.ofNat 16 3) ∧
      ((opened.slot 14).revision = BitVec.ofNat 16 2 ∧ opened.stagedAnchorBad 0 (some 14) (14 : Slot).val ∧
        opened.keyTaken 131 (some 14)) ∧
      ((15 : Slot) ∈ (staged.group 0).reserved ∧ (staged.group 0).state = .opened ∧ ¬editFormBad (.restore 15 0)) ∧
      (full.setGroup 0 { state := .opened }).freeEntries < newCues.length ∧
      ((unstaging.group 0).state = .opened ∧ ¬unstaging.stagedAnchorBad 0 (some 14) (11 : Slot).val ∧
        (unstaging.slot 14).isLive = true ∧ (unstaging.slot 14).track = (unstaging.group 0).track ∧
        (unstaging.slot 14).revision = BitVec.ofNat 16 2 ∧ ¬editFormBad (.move 14 2 11) ∧ ¬editFormBad (.update 14 2 0x10 newClip) ∧
        (0x10).testBit 0 = false) := by
  simp only [State.keyTaken_iff, State.stagedAnchorBad_slot]
  dsimp only [State.portFree, editFormBad, anchorFormBad, cueFormBad]
  refine ⟨?_, ?_, ?_, ?_, ?_, ?_, ?_, ?_, ?_, ?_, ?_, ?_, ?_⟩ <;> decide +kernel

theorem witness_StagedEditJoinsItsGroup :
    (opened.portFree ∧ (opened.group 0).state = .opened ∧ 0 < opened.freeStaging ∧
        (∃ p, (Edit.create (trackCode (opened.group 0).track) 0xFFFF newClip newCues).parse = some p ∧
          p.body.newEntries ≤ opened.freeEntries)) ∧
      ¬opened.stagedAnchorBad 0 none 0xFFFF ∧ ¬opened.keyTaken newClip.key none ∧
      ((opened.slot 15).condition = .free ∧ ∀ j, j < 15 → (opened.slot j).condition ≠ .free) ∧
      ((∃ p, (Edit.move 15 0 11).parse = some p ∧ p.body.newEntries ≤ staged.freeEntries) ∧ 0 < staged.freeStaging ∧
        editNames (.move 15 0 11) = some ((15 : Slot).val, 0) ∧ (15 : Slot) ∈ (staged.group 0).reserved ∧
        ¬staged.stagedAnchorBad 0 (some 15) (11 : Slot).val) ∧
      ((∃ p, (Edit.update 14 2 0x10 newClip).parse = some p) ∧ editNames (.update 14 2 0x10 newClip) = some ((14 : Slot).val, 2) ∧
        (14 : Slot) ∉ (opened.group 0).reserved ∧ (opened.slot 14).isLive = true ∧ (opened.slot 14).track = (opened.group 0).track ∧
        (opened.slot 14).revision = BitVec.ofNat 16 2 ∧ (0x10).testBit 0 = false) := by
  simp only [State.keyTaken_iff, State.stagedAnchorBad_slot, ← State.lowestFree_eq]
  dsimp only [State.portFree]
  exact ⟨⟨by decide +kernel, by decide +kernel, by decide +kernel, _, rfl, by decide +kernel⟩, State.not_stagedAnchorBad_head,
    by decide +kernel, by decide +kernel, ⟨⟨_, rfl, by decide +kernel⟩, by decide +kernel⟩, ⟨_, rfl⟩, by decide +kernel⟩

theorem witness_GroupLaunchArmsOrApplies :
    (opened.portFree ∧ (gallery.group 0).state ≠ .opened) ∧
      ((opened.group 0).state = .opened ∧ (opened.track (opened.group 0).track).onAir ≠ none ∧
        0 ∉ opened.armedQueue (opened.group 0).track ∧ (opened.group 0).edits = []) ∧
      launchModeOf 0 = some .now ∧ launchModeOf 1 = some .boundary ∧
      (let s := opened.setTrack .a {}
       s.portFree ∧ (s.group 0).state = .opened ∧ (s.track (s.group 0).track).onAir = none ∧
         (after (.groupLaunch 0 1) s).buffer = .ready ⟨.ok, .launched .idle .applied none⟩) := by
  dsimp only [State.portFree]; decide +kernel

/-- A group of two updates of item 14, and one of a creation updated in the same group. -/
def twice (revision : Option Word16) : State :=
  gallery.setGroup 0 { state := .opened, edits := [⟨14, some 2, .update { words := some 5 }⟩, ⟨14, revision, .update { planned := some 6 }⟩] }
def createdAndUpdated : State :=
  (gallery.setSlot 15 { gallery.slot 15 with condition := .staged }).setGroup 0
    { state := .opened, reserved := [15]
      edits := [⟨15, none, .create .a none { key := 8800, floated := true } []⟩, ⟨15, some 4, .update { planned := some 6 }⟩] }

theorem witness_GroupEditsAreJudgedFromTheStart :
    ((twice (some 2)).portFree ∧ ((twice (some 2)).group 0).state = .opened ∧ ((twice (some 2)).slot 14).isLive = true ∧
        ((twice (some 2)).slot 14).track = ((twice (some 2)).group 0).track ∧ (14 : Slot) ∉ ((twice (some 2)).group 0).reserved ∧ ((twice (some 2)).slot 14).revision = 2 ∧
        ((twice (some 3)).slot 14).isLive = true ∧
        ((twice (some 3)).slot 14).track = ((twice (some 3)).group 0).track ∧ some 3 ≠ some ((twice (some 3)).slot 14).revision) ∧
      createdAndUpdated.portFree ∧ (15 : Slot) ∈ (createdAndUpdated.group 0).reserved ∧
      (createdAndUpdated.slot 15).condition = .staged ∧ ¬createdAndUpdated.keyTaken 8800 none ∧
      (createdAndUpdated.track (createdAndUpdated.group 0).track).onAir ≠ some 15 ∧
      (createdAndUpdated.track (createdAndUpdated.group 0).track).ready ≠ some 15 := by
  simp only [State.keyTaken_iff]
  dsimp only [State.portFree]
  decide +kernel

/-- The edits of a list are all carried out, or the list stops at an edit. -/
theorem witness_GroupEditsAreJudgedFromTheStart_lists :
    (match State.runEdits gallery.currentReference 0 ((twice (some 2)).group 0).edits gallery with
      | .ok s => decide ((s.slot 14).revision = 4)
      | .error _ => false) = true ∧
      (match State.runEdits gallery.currentReference 0 ((twice (some 3)).group 0).edits gallery with
      | .ok _ => false
      | .error (cause, n) => decide (cause = .stale ∧ n = 1)) = true := by decide +kernel

theorem witness_ArmedGroupsAreAppliedAtATake :
    armed.armedQueue .a = [0] ∧ (∀ g ∈ armed.armedQueue .a, (armed.group g).track = .a) ∧ gallery.armedQueue .a = [] := by decide +kernel

/-! ### Takes, holds and the panel -/

/-- The gallery with Track A's record changed. -/
def trackA (f : TrackRec → TrackRec) : State := gallery.setTrack .a (f (gallery.track .a))

theorem witness_TrackTakePutsTheReadyItemOnAir :
    (gallery.portFree ∧ (gallery.track .a).lockoutCount = 0 ∧ (gallery.track .a).ready = some 11 ∧ gallery.armedQueue .a = [] ∧
        (gallery.track .a).onAir = some 10 ∧ gallery.QueuesIdle) ∧
      0 < ((trackA ({ · with lockoutCount := 1 })).track .a).lockoutCount ∧ ((trackA ({ · with ready := none })).track .a).ready = none := by
  dsimp only [State.portFree, State.QueuesIdle]; decide +kernel

theorem witness_TrackSkipPassesTheReadyItem :
    (gallery.portFree ∧ (gallery.track .a).ready = some 11 ∧ gallery.QueuesIdle) ∧
      ((trackA ({ · with ready := none })).track .a).ready = none := by
  dsimp only [State.portFree, State.QueuesIdle]; decide +kernel

theorem witness_TrackRecordIsSetAndRead :
    (gallery.portFree ∧ yesNoOf 0 = some false ∧ yesNoOf 1 = some true) ∧
      (let v : TrackSettings := ⟨16, 256, 65536, 65537, 0, 0⟩
       let x : TrackRec := { gallery.track .a with takeDelay := 15, lockout := 255, band := 65535, hysteresis := 65535, hardOut := none }
       0 < 31 ∧ 31 < 32 ∧ x.takeDelay = (if (31).testBit 0 then min v.takeDelay 15 else (gallery.track .a).takeDelay) ∧
         x.lockout = (if (31).testBit 1 then min v.lockout 255 else (gallery.track .a).lockout) ∧
         x.band = (if (31).testBit 2 then min v.band 65535 else (gallery.track .a).band) ∧
         x.hysteresis = min (if (31).testBit 3 then v.hysteresis else (gallery.track .a).hysteresis) x.band ∧
         v.presence < 2 ∧
         x.hardOut = (if (31).testBit 4 then (if v.presence = 1 then some (BitVec.ofNat 32 v.hardOut) else none)
           else (gallery.track .a).hardOut) ∧
         x.lockoutCount = (if (31).testBit 1 then min (gallery.track .a).lockoutCount x.lockout else (gallery.track .a).lockoutCount)) ∧
      ((trackA ({ · with onAir := none })).track .a).onAir = none ∧ (gallery.slot 10).fields.auto = false ∧
      ((autoDue.track .a).onAir = some 10 ∧ (autoDue.slot 10).fields.auto = true ∧ (autoDue.slot 10).start = some 49000 ∧
        (50247 : Frame) = 49000 + BitVec.ofNat 32 (autoDue.base (autoDue.slot 10)) - BitVec.ofNat 32 (autoDue.look .a).takeDelay ∧
        autoDue.reached 50247 = true ∧ autoDue.effectiveHold .a = false) ∧
      ({ autoDue with sfc := 50246 } : State).reached 50247 = false ∧
      (autoDue.setTrack .a { autoDue.track .a with hostHold := true }).effectiveHold .a = true ∧
      0 < ((autoDue.setTrack .a { autoDue.track .a with lockoutCount := 1 }).track .a).lockoutCount ∧
      ((autoDue.setTrack .a { autoDue.track .a with ready := none }).track .a).ready = none := by
  dsimp only [State.portFree]; decide +kernel

/-- An item READY, one DONE and one PLANNED in Track A, one PLANNED before the one ON_AIR in Track B, and an OPEN group with a
reserved slot. -/
def small : State :=
  { (((((((State.reset.setSlot 0 (item .a 1 .done { key := 1 })).setSlot 1 (item .a 1 .ready { key := 2 })).setSlot 2
      (item .a 1 .planned { key := 3 })).setSlot 3 { item .b 1 .onAir { key := 4 } with start := some 0 }).setSlot 4
      ((State.reset.slot 4).reserve .a { key := 5 } [])).setSlot 9 (item .b 1 .planned { key := 6 })).setGroup 0
        { state := .opened, reserved := [4], edits := [⟨4, none, .create .a none { key := 5 } []⟩] }) with
    orders := ⟨[0, 1, 2], [9, 3]⟩, tracks := ⟨{ ready := some 1 }, { onAir := some 3 }⟩ }

theorem small_sound : small.Sound where
  nodup := by intro t; cases t <;> decide +kernel
  orders := by
    intro t i
    have h : ∀ t, ∀ e ∈ small.slots.entries, e.1 ∈ small.order t ↔ e.2.condition = .live ∧ e.2.track = t := by
      intro t; cases t <;> decide +kernel
    exact h t (i, small.slot i) (Bank.mem_entries.mpr rfl)
  staged := by
    intro i
    have h : ∀ e ∈ small.slots.entries, e.2.condition = .staged ↔ ∃ g, e.1 ∈ (small.group g).reserved := by decide +kernel
    exact h (i, small.slot i) (Bank.mem_entries.mpr rfl)
  reservedOnce := by decide +kernel
  reservedApart := by
    intro g h i hg hh
    have k : ∀ g h : GroupNo, ∀ i ∈ (small.group g).reserved, i ∈ (small.group h).reserved → g = h := by decide +kernel
    exact k g h i hg hh
  creates := by decide +kernel
  lists := by
    have h : ∀ g, ∀ e ∈ (small.group g).edits, (small.slot e.slot).cues.length = e.body.newEntries := by decide +kernel
    intro g e he t a f l hb
    rw [h g e he, hb]
    rfl
  createdFor := by
    have h : ∀ g, ∀ e ∈ (small.group g).edits, (match e.body with
        | .create t _ _ _ => decide (t = (small.group g).track)
        | _ => true) = true := by decide +kernel
    intro g e he t a f l hb
    have k := h g e he
    rw [hb] at k
    exact of_decide_eq_true k
  drawn := by decide +kernel
  idle := by decide +kernel
  entries := by decide +kernel
  staging := by decide +kernel
  queueOnce := by intro t; cases t <;> decide +kernel
  queues := by intro t; cases t <;> decide +kernel
  boundary := by intro t; cases t <;> decide +kernel
  onAir := by
    intro t i
    have h : ∀ t, ∀ e ∈ small.slots.entries,
        (small.track t).onAir = some e.1 ↔ e.2.condition = .live ∧ e.2.track = t ∧ e.2.state = .onAir := by
      intro t; cases t <;> decide +kernel
    exact h t (i, small.slot i) (Bank.mem_entries.mpr rfl)
  ready := by
    intro t i
    have h : ∀ t, ∀ e ∈ small.slots.entries,
        (small.track t).ready = some e.1 ↔ e.2.condition = .live ∧ e.2.track = t ∧ e.2.state = .ready := by
      intro t; cases t <;> decide +kernel
    exact h t (i, small.slot i) (Bank.mem_entries.mpr rfl)
  first := by intro t; cases t <;> decide +kernel

theorem small_items : ∀ i, (small.slot i).InRange := by
  have h : ∀ x ∈ small.slots.cells, x.fields.words ≤ 4095 ∧ x.fields.planned ≤ 1048575 ∧ x.actual = none ∧ x.cues = [] := by
    decide +kernel
  rw [State.forall_slot]
  intro x hx
  obtain ⟨h1, h2, h3, h4⟩ := h x hx
  exact ⟨⟨h1, h2⟩, by simp [h3], by simp [h4], by simp [h4], by simp [h4]⟩

theorem small_presenters : ∀ p, (small.presenter p).InRange := by
  have h : ∀ p, small.presenter p = {} := by decide +kernel
  intro p
  rw [h p]
  constructor <;> first | decide | exact ⟨by decide, by decide⟩

theorem small_routes : ∀ n, (small.route n).delivery.InRange := by
  have h : ∀ n, (small.route n).delivery = {} := by decide +kernel
  intro n
  rw [h n]
  constructor <;> decide

theorem small_channels : ∀ c, (small.channel c).InRange ∧ (small.channel c).CountsInRange := by
  have h : ∀ c, small.channel c = {} := by decide +kernel
  intro c
  rw [h c]
  exact ⟨by constructor <;> simp, by constructor <;> simp⟩

theorem small_links : ∀ k, small.tx k = {}
  | .device c => (by decide +kernel : ∀ c, small.tx (.device c) = {}) c
  | .prompter => by decide +kernel
  | .display => by decide +kernel

theorem small_inRange : small.InRange where
  items := small_items
  staged := by
    have h : ∀ g, ∀ e ∈ (small.group g).edits, e.body = .create .a none { key := 5 } [] := by decide +kernel
    intro g e he
    rw [h g e he]
    exact ⟨⟨by decide, by decide⟩, by decide⟩
  presenters := small_presenters
  tracks := fun t => by cases t <;> exact ⟨by decide +kernel, by decide +kernel, by decide +kernel, by decide +kernel, by decide +kernel⟩
  looks := fun t => by cases t <;> decide +kernel
  routes := small_routes
  defaultRoute := by constructor <;> decide +kernel
  channels := fun c => (small_channels c).1
  counts := fun c => (small_channels c).2
  lights := by decide +kernel
  transmit := fun k => by rw [small_links k]; decide
  idleLink := fun k _ => by rw [small_links k]
  debounceLow := by decide +kernel
  debounceHigh := by decide +kernel
  panel := by decide +kernel
  qualifying := by decide +kernel
  locked := by decide +kernel
  global := by decide +kernel

theorem witness_TrackResetReturnsTheTrack :
    small.portFree ∧ small.Sound ∧ small.InRange ∧ ((0 : Slot) ∈ small.order .a ∧ (small.slot 0).state = .done) ∧
      ((2 : Slot) ∈ small.order .a ∧ (small.slot 2).state = .planned) ∧ ((3 : Slot) ∈ small.order .b ∧ Track.b ≠ .a) ∧
      ((small.group 0).track = .a ∧ (small.group 0).state ≠ .idle ∧ (small.group 0).track ≠ .b) ∧ small.QueuesIdle ∧
      ((after (.trackReset 0) small).track .a).ready = some 0 ∧
      (0 : Slot) ∉ small.candidates .a ∧
      ((9 : Slot) ∈ small.order .b ∧ (small.slot 9).state = .planned ∧ ((after (.trackReset 1) small).track .b).ready = some 9) := by
  refine ⟨?_, small_sound, small_inRange, ?_⟩
  · dsimp only [State.portFree]; decide +kernel
  · dsimp only [State.QueuesIdle]; decide +kernel

/-- No item a track watches has its hard-in reached. -/
theorem noneDue {s : State} {t : Track} (h : (s.candidates t).any (s.hardInDue t) = false) :
    ∀ j f, s.Watches t j f → s.reachedAtWork (frameSub f (s.look t).takeDelay) = false := by
  intro j f hj
  have := List.any_eq_false.mp h j hj.1
  simpa [State.hardInDue, hj.2] using this

/-- Item 13 PLANNED behind item 11, which is READY. -/
def passing : State := looked
  { beforeBreak.setSlot 13 { beforeBreak.slot 13 with state := .planned } with
    orders := ⟨[15, 11, 13], []⟩, tracks := ⟨{ onAir := some 15, ready := some 11 }, {}⟩ }

/-- Track A a frame before the break is due. -/
def notYet : State := looked { beforeBreak with sfc := 55996 }

/-- The break due at the frame event at which a lockout of 1 runs out. -/
def unlocking : State := beforeBreak.setTrack .a { beforeBreak.track .a with lockoutCount := 1 }

/-- The UPDATE of item 14, PLANNED in the gallery, that gives it a hard-in already reached. -/
def lateHardIn : Instr := .itemUpdate 14 2 0x100 ⟨0, 0, 0x10, 0, 0, 0, 49000, 0⟩

/-- The gallery with the sequencer's frame work of its frame event due, the lockout run out. -/
def working : State := { gallery with due := [.sequencer .a] }

/-- R14, R52: a hard-in given after the frame event is not watched in that frame event's work; the item is taken in the next one's. -/
theorem test_hard_in_acts_from_the_next_frame_event :
    let s := { after lateHardIn working with buffer := .empty }
    (s.slot 14).fields.hardIn = some 49000 ∧ s.hardInItem .a = none ∧ after (.hardInTake .a) s = s ∧
      ((after (.flywheelTick ⟨0, [.sequencer .a]⟩) s).track .a).onAir = some 14 ∧
      ((after (.flywheelTick ⟨0, [.sequencer .a]⟩) s).slot 14).start = some 49000 := by decide +kernel

/-- R14, R52: a hard-in due at a frame event is taken in its work, as it stood there, although it has been removed since. -/
theorem test_due_hard_in_removed_too_late :
    let s := after (.itemUpdate 13 5 0x100 ⟨0, 0, 0, 0, 0, 0, 0, 0⟩) beforeBreak
    (s.slot 13).fields.hardIn = none ∧ ((after (.hardInTake .a) s).slot 13).start = some 56000 := by decide +kernel

theorem witness_HardInTakeTakesTheLatestDueItem :
    (beforeBreak.held = false ∧ .sequencer .a ∈ beforeBreak.due ∧ beforeBreak.afterOnAir .a = [] ++ 13 :: [] ∧ 13 ∉ ([] : List Slot) ∧
        beforeBreak.Watches .a 13 56000 ∧ beforeBreak.reachedAtWork (frameSub 56000 (beforeBreak.look .a).takeDelay) = true) ∧
      (passing.held = false ∧ .sequencer .a ∈ passing.due ∧ passing.afterOnAir .a = [11] ++ 13 :: [] ∧
        passing.Watches .a 13 56000 ∧ passing.reachedAtWork (frameSub 56000 (passing.look .a).takeDelay) = true) ∧
      (unlocking.afterOnAir .a = [] ++ 13 :: [] ∧ unlocking.Watches .a 13 56000 ∧ unlocking.cut.get .a = false ∧
        (unlocking.track .a).lockoutCount = 1) ∧
      ∀ j f, notYet.Watches .a j f → notYet.reachedAtWork (frameSub f (notYet.look .a).takeDelay) = false := by
  refine ⟨?_, ?_, ?_, noneDue (s := notYet) (t := .a) (by decide +kernel)⟩ <;>
    (dsimp only [State.Watches]; decide +kernel)

/-- The gallery is as a frame event left it, and two edits are carried out between it and the next. -/
theorem witness_HardInTakeTakesTheLatestDueItem_look :
    gallery.LooksAt .a (gallery.look .a) ∧ (gallery.lookNow .a).hardIns = [⟨13, 56000⟩] ∧
      ((∃ u, exec lateHardIn working = .next u) ∧ (∀ dt e, lateHardIn ≠ .refPulse dt e) ∧ (∀ e, lateHardIn ≠ .flywheelTick e) ∧
        ∀ e, lateHardIn ≠ .referenceLoss e) ∧
      ∃ u, exec .partReset gallery = .next u :=
  ⟨State.lookNow_looksAt gallery .a, by decide +kernel, ⟨⟨_, rfl⟩, nofun, nofun, nofun⟩, _, rfl⟩

/-- The gallery's auto-take due but for an auto or a hold looked at as the frame event found them. -/
def autoLooked (f : Look → Look) : State := autoDue.setLooks ⟨f (autoDue.look .a), autoDue.look .b⟩

/-- R42, R51: an auto given, or a hold released, since the frame event lets the auto-take go at the next. -/
theorem test_auto_take_from_the_next_frame_event :
    let s := autoLooked ({ · with auto := false })
    let h := autoLooked ({ · with hostHold := true })
    after (.autoTake .a) s = s ∧ after (.autoTake .a) h = h ∧
      ((after (.flywheelTick ⟨0, [.sequencer .a]⟩) h).track .a).onAir = some 11 ∧
      (after (.trackHold 0 0) { h with buffer := .empty }).looks = h.looks := by decide +kernel

/-- R68: a count moved past a fire frame since the frame event offers its cue at the next. -/
theorem test_time_set_offers_at_the_next_frame_event :
    let s := { after (.timeSet 52816) (looked { preloaded with sfc := 52800, due := [.scheduler] }) with buffer := .empty }
    after .cueOffer s = s ∧ (after (.flywheelTick ⟨0, [.scheduler]⟩) s).firing = [] := by decide +kernel

theorem witness_AutoTakeAndLockoutFollowTheFrameWork :
    (autoDue.held = false ∧ .sequencer .a ∈ autoDue.due ∧ (autoDue.track .a).onAir = some 10 ∧ (autoDue.slot 10).fields.auto = true ∧
        (autoDue.slot 10).start = some 49000 ∧ (autoDue.look .a).auto = true ∧ (autoDue.look .a).hostHold = false ∧
        autoDue.reachedAtWork (frameSub (frameAdd 49000 (autoDue.base (autoDue.slot 10))) (autoDue.look .a).takeDelay) = true ∧
        autoDue.effectiveHold .a = false ∧ (autoDue.track .a).lockoutCount ≤ 1 ∧ (autoDue.track .a).ready = some 11 ∧
        autoDue.cut.get .a = false ∧ (autoDue.setCut ⟨true, false⟩).cut.get .a = true) ∧
      (∀ j f, autoDue.Watches .a j f → autoDue.reachedAtWork (frameSub f (autoDue.look .a).takeDelay) = false) ∧
      ((autoDue.setTrack .a { autoDue.track .a with onAir := none }).track .a).onAir = none ∧ (gallery.slot 10).fields.auto = false ∧
      (looked { autoDue with sfc := 50246 }).reachedAtWork
        (frameSub (frameAdd 49000 (autoDue.base (autoDue.slot 10))) (autoDue.look .a).takeDelay) = false ∧
      ((autoLooked ({ · with auto := false })).look .a).auto = false ∧
      ((autoLooked ({ · with hostHold := true })).look .a).hostHold = true ∧
      (autoDue.setTrack .a { autoDue.track .a with hostHold := true }).effectiveHold .a = true ∧
      ((autoDue.setTrack .a { autoDue.track .a with lockoutCount := 1, ready := none }).track .a).lockoutCount = 1 ∧
      ((autoDue.setTrack .a { autoDue.track .a with lockoutCount := 1 }).track .a).lockoutCount = 1 ∧
      (unlocking.held = false ∧ .sequencer .a ∈ unlocking.due ∧ unlocking.Watches .a 13 56000 ∧
        unlocking.reachedAtWork (frameSub 56000 (unlocking.look .a).takeDelay) = true ∧
        unlocking.cut.get .a = false ∧ (unlocking.track .a).lockoutCount = 1) ∧
      2 ≤ ((autoDue.setTrack .a { autoDue.track .a with lockoutCount := 2 }).track .a).lockoutCount := by
  refine ⟨by decide +kernel, noneDue (s := autoDue) (t := .a) (by decide +kernel), ?_⟩
  dsimp only [State.Watches]
  decide +kernel

/-- The gallery with a panel input due, its raw level and its count. -/
def panel (i : PanelInput) (raw : Bool) (count : Nat) : State := { gallery.setInput i ⟨false, count, raw⟩ with due := [.panel i] }

theorem witness_PanelInputsAreDebounced :
    ((panel 0 false 1).input 0).raw = ((panel 0 false 1).input 0).active ∧
      (((panel 0 true 0).input 0).raw ≠ ((panel 0 true 0).input 0).active ∧ ((panel 0 true 0).input 0).count + 1 < (panel 0 true 0).debounce) ∧
      (∀ i : PanelInput, (panel i true 1).held = false ∧ .panel i ∈ (panel i true 1).due ∧
        ((panel i true 1).input i).raw ≠ ((panel i true 1).input i).active ∧
        (panel i true 1).debounce ≤ ((panel i true 1).input i).count + 1) ∧
      ((panel 0 true 1).track .a).lockoutCount = 0 ∧ ((panel 0 true 1).track .a).ready = some 11 ∧
      (((panel 6 true 1).channel 0).state = .offline ∧ ((panel 6 true 1).channel 3).state = .ready) ∧
      (let s := (panel 6 true 1).setChannel 3 ((recovering 200 [queuedAt 1 .play 52816]).channel 3)
       (s.channel 3).state = .recovering ∧ (s.channel 3).queue = queuedAt 1 .play 52816 :: [] ∧
         (queuedAt 1 .play 52816).mode = .answer) ∧
      (let s := (panel 1 true 1).setTrack .a { gallery.track .a with ready := none, lockoutCount := 1 }
       .panel 1 ∈ s.due ∧ (s.track .a).ready = none ∧ 0 < (s.track .a).lockoutCount) ∧ (panel 1 true 1).QueuesIdle := by
  dsimp only [State.QueuesIdle]; decide +kernel

/-! ### The time base and the timing engine -/

/-- The gallery LOCKED. -/
def locked : State := { gallery with reference := .locked }

theorem witness_TimeRequestsSetAndReadTheCount :
    (gallery.portFree ∧ 2 ^ 32 - 1 < 2 ^ 32 ∧ gallery.reference = .flywheel) ∧ locked.portFree ∧ locked.reference = .locked := by
  dsimp only [State.portFree]; decide +kernel

theorem witness_OwnFrameEventsCountOneFrame :
    (gallery.held = false ∧ gallery.reference = .flywheel ∧ gallery.due = [] ∧ gallery.readsDone = []) ∧
      locked.held = false ∧ locked.reference = .locked := by decide +kernel

theorem witness_PulseCountsAtMostOneFrame :
    (locked.held = false ∧ locked.reference = .locked ∧ 2160000 ≤ locked.untilOwn ∧ 5400000 ≤ locked.untilOwn ∧
        2 * locked.frameRate.quarter ≤ locked.sinceFrame + 2160000 ∧ locked.sinceFrame + 2159999 < 2 * locked.frameRate.quarter) ∧
      (gallery.held = false ∧ gallery.reference = .flywheel ∧ 4320000 ≤ gallery.untilOwn ∧
        2 * gallery.frameRate.quarter ≤ gallery.sinceFrame + 2160000 ∧
        (1 = if gallery.qualifying ≠ 0 ∧ 3 * gallery.frameRate.quarter ≤ gallery.sincePulse + 2160000 ∧
          gallery.sincePulse + 2160000 ≤ 5 * gallery.frameRate.quarter then gallery.qualifying + 1 else 1) ∧
        gallery.sinceFrame + 2159999 < 2 * gallery.frameRate.quarter ∧ gallery.lastTick = true) ∧
      (let s := { gallery with qualifying := 3, sincePulse := 3239999, lastTick := false }
       1 ≤ s.untilOwn ∧
       (4 = if s.qualifying ≠ 0 ∧ 3 * s.frameRate.quarter ≤ s.sincePulse + 1 ∧
          s.sincePulse + 1 ≤ 5 * s.frameRate.quarter then s.qualifying + 1 else 1) ∧
        s.sinceFrame + 1 < 2 * s.frameRate.quarter ∧ s.lastTick = false) := by decide +kernel

theorem witness_LatePulseFindsTheOwnEventMade :
    (gallery.held = false ∧ gallery.untilOwn < 4320001 ∧ gallery.reference = .flywheel) ∧ locked.untilOwn < 5400001 ∧
      locked.reference = .locked := by decide +kernel

/-- Track A with U made a figure, and a status. -/
def withU (u : Int) (x : Status) : State := (trackA ({ · with hardOut := some (58500 - BitVec.ofInt 32 u) })).setStatus .a x

theorem witness_OverUnderStatusFollowsTheTable :
    (∀ u ∈ ([125, 126, -125, -126, 100, 101, -100, -101] : List Int), (withU u .overTime).overUnder .a = some u) ∧
      ((withU 100 .overTime).track .a).band = 125 ∧ ((withU 100 .overTime).track .a).hysteresis = 25 ∧
      (gallery.track .b).hardOut = none ∧ (withU 126 .none).statusOf .a = .none ∧ (withU 101 .overTime).statusOf .a = .overTime ∧
      (withU (-101) .underTime).statusOf .a = .underTime := by decide +kernel

theorem witness_DurationsFollowTheRecord :
    ((gallery.slot 11).fields.kind ≠ .read ∧ (gallery.slot 11).state = .ready) ∧
      ((small.slot 0).fields.kind = .read ∧ (small.slot 0).fields.presenter = none ∧ (small.slot 0).state = .done) ∧
      ((gallery.slot 12).fields.kind = .read ∧ (gallery.slot 12).fields.presenter = some 2 ∧ (gallery.slot 12).fields.timed = false) ∧
      ((gallery.slot 10).state = .onAir ∧ (gallery.slot 10).start = some 49000 ∧ (gallery.derived 10).base = some 1250) ∧
      ((gallery.setSlot 11 (item .a 1 .skipped { timed := true })).slot 11).state = .skipped := by decide +kernel

/-- Track A's projection at 12.1, and with nothing on air. -/
def laid : List Projected :=
  [⟨10, 49000, 1250, none⟩, ⟨11, 50250, 2500, none⟩, ⟨12, 52750, 2500, none⟩, ⟨13, 56000, 1500, some 750⟩, ⟨14, 57500, 1000, none⟩]

theorem witness_ProjectionLaysItemsEndToEnd :
    ((gallery.track .a).onAir = some 10 ∧ (gallery.slot 10).start = some 49000 ∧ gallery.projection .a = laid) ∧
      (let s := trackA ({ · with onAir := none })
       (s.track .a).onAir = none ∧ (s.projection .a).head? = some ⟨11, 50003, 2500, none⟩ ∧ (s.slot 11).fields.hardIn = none) ∧
      (let s := (trackA ({ · with onAir := none })).setOrder .a [13]
       s.projection .a = [⟨13, 56000, 1500, some 5997⟩] ∧ (s.slot 13).fields.hardIn = some 56000) ∧
      (State.reset.projection .a = [] ∧ (State.reset.track .a).hardOut = none) ∧
      ((gallery.track .a).hardOut = some 58000 ∧ ((gallery.projection .a).map Projected.slot).Nodup ∧
        ∀ p ∈ gallery.projection .a, (gallery.slot p.slot).track = .a) ∧
      (gallery.slot 9).track = .a ∧ (9 : Slot) ∉ (gallery.projection .a).map Projected.slot := by decide +kernel

/-! ### Presenters and learning -/

/-- Settings above every range, and the record they leave. -/
def overRange : PresenterSettings := ⟨1, 8, 9, 16384, 16384, 4096, 65535, 255, 255, 255, 255, 255, 255⟩
def atLimits : Presenter :=
  { enabled := true, learn := false, slowShift := 7, fastShift := 7, fastBound := 16383, haltBand := 16383, minWords := 4095
    wrap := 65535, standby := ⟨255, 255⟩, onAir := ⟨255, 255⟩, wrapping := ⟨255, 255⟩ }

theorem witness_PresenterRequestsSetAndRead :
    (gallery.portFree ∧ 0 < 16383 ∧ 16383 < 16384 ∧ overRange.flags < 4 ∧
        atLimits.enabled = overRange.flags.testBit 0 ∧ atLimits.learn = overRange.flags.testBit 1 ∧
        atLimits.slowShift = max 1 (min 7 overRange.slowShift) ∧ atLimits.fastShift = min overRange.fastShift atLimits.slowShift ∧
        atLimits.fastBound = min overRange.fastBound 16383 ∧ atLimits.haltBand = min overRange.haltBand 16383 ∧
        atLimits.minWords = max 1 (min 4095 overRange.minWords) ∧ atLimits.wrap = min overRange.wrap 65535 ∧
        atLimits.standby.lit = min overRange.standbyLit 255 ∧ atLimits.wrapping.dark = min overRange.wrapDark 255 ∧
        atLimits.rate = (gallery.presenter 2).rate ∧ atLimits.outliers = (gallery.presenter 2).outliers ∧
        atLimits.last = (gallery.presenter 2).last) ∧
      4 ≤ ({ overRange with flags := 4 } : PresenterSettings).flags ∧
      (64 = max 64 (min 16383 63) ∧ 16383 = max 64 (min 16383 16384)) := by
  dsimp only [State.portFree]; decide +kernel

/-- The completion of item 10, a READ of 150 words, with its actual and its prompter end. -/
def readDone (actual : Nat) (timed : Bool) (e : Option Frame) : ReadDone := ⟨10, .a, .read, some 2, 150, timed, 49000, actual, e⟩

/-- The gallery with that completion handed and the outlier count given. -/
def handed (d : ReadDone) (outliers : Nat) : State :=
  (gallery.setPresenter 2 { gallery.presenter 2 with outliers := outliers }).setReadsDone [d]

theorem witness_CompletionLearnsFromItsSample :
    ((handed (readDone 1313 false (some 50313)) 0).held = false ∧ 1 ≤ frameDiff 50313 49000 ∧ frameDiff 50313 49000 ≤ (1313 : Nat) ∧
        ((1313 : Nat) : Int) = frameDiff 50313 49000) ∧
      (1 ≤ frameDiff 49001 49000 ∧ ¬1 ≤ frameDiff 49000 49000 ∧ ¬frameDiff 50314 49000 ≤ (1313 : Nat)) ∧
      ((gallery.presenter 2).enabled = true ∧ (gallery.presenter 2).learn = true ∧ (gallery.presenter 2).minWords ≤ 150) ∧
      (2219 = max 64 (min 16383 ((1300 * 256 + 150 / 2) / 150)) ∧ ((86 : Int) = (2219 : Nat) - ((gallery.presenter 2).rate : Int)) ∧
        (86 : Int).natAbs ≤ (gallery.presenter 2).haltBand ∧ ¬(gallery.presenter 2).fastBound < (86 : Int).natAbs ∧
        11 = ((86 : Int).natAbs + 2 ^ (3 - 1)) / 2 ^ 3 ∧ ((2144 : Nat) : Int) = max 64 (min 16383 (((gallery.presenter 2).rate : Int) + 11))) ∧
      (let r := max 64 (min 16383 ((3000 * 256 + 150 / 2) / 150))
       r = 5120 ∧ (gallery.presenter 2).haltBand ≠ 0 ∧ (gallery.presenter 2).haltBand < ((r : Int) - (gallery.presenter 2).rate).natAbs) ∧
      ((handed (readDone 3000 false none) 1).presenter 2).outliers < 2 ∧ ((handed (readDone 3000 false none) 2).presenter 2).outliers = 2 ∧
      (handed (readDone 3000 true none) 0).readsDone = readDone 3000 true none :: [] ∧ (gallery.presenter 0).enabled = false := by
  decide +kernel

/-! ### Cues -/

/-- Item 14 with one cue of each phase, PENDING, and item 13 with a cue for a target no route serves. -/
def cued : State :=
  (gallery.setSlot 14 { gallery.slot 14 with
    cues := [CueSpec.fresh ⟨.ready, 0, 4101, .load, 1⟩, CueSpec.fresh ⟨.start, 10, 4101, .play, 2⟩, CueSpec.fresh ⟨.ending, 0, 4101, .stop, 3⟩,
      CueSpec.fresh ⟨.ready, 0, 9, .load, 4⟩] })

/-- The copy of entry 2. -/
def entry2 : Resolved := ⟨.entry 2, { channel := 3, preroll := 5, mode := .answer }⟩

theorem witness_ArmedCuesTakeTheirFireFrame :
    (cued.cue? 14 1 = some (CueSpec.fresh ⟨.start, 10, 4101, .play, 2⟩) ∧ Phase.start ≠ .ready ∧
        (CueSpec.fresh ⟨.start, 10, 4101, .play, 2⟩).state = .pending) ∧
      (cued.cue? 14 3).isSome = true ∧ cued.resolve 9 .load .a = none ∧
      (cued.resolve 4101 .load .a = some entry2 ∧ cued.resolve 4101 .play .a = some entry2 ∧ cued.resolve 4101 .stop .a = some entry2) ∧
      (frameDiff ((49995 : Frame) + BitVec.ofNat 32 10 - BitVec.ofNat 32 entry2.delivery.preroll) cued.sfc = 0) ∧
      (frameDiff ((49994 : Frame) + BitVec.ofNat 32 10 - BitVec.ofNat 32 entry2.delivery.preroll) cued.sfc < 0) ∧
      frameDiff ((50004 : Frame) - BitVec.ofNat 32 entry2.delivery.preroll) cued.sfc < 0 := by decide +kernel

theorem witness_ArmingOffersAndAbandonmentWithdraws :
    ((cued.slot 14).cues.length = 4 ∧ (preloaded.cue? 15 1).map (fun q => q.state) = some .armed) ∧
      ((preloaded.cue? 15 0).map (fun q => (q.state, q.resolved)) = some (.queued, some entry2) ∧
        (preloaded.channel entry2.delivery.channel).state ≠ .ready) ∧
      (cued.cue? 14 0).map (fun q => q.state) = some .pending ∧ preloaded.QueuesIdle := by
  dsimp only [State.QueuesIdle]; decide +kernel

/-- An ARMED cue of slot 15 with its offer, and channel 3 as given. -/
def offering (a : Action) (f : Channel → Channel) : State :=
  let s := preloaded.setSlot 15 { preloaded.slot 15 with
    cues := [{ spec := ⟨.start, 0, 4101, a, 1⟩, state := .armed, resolved := some entry2, fire := some 52816 }] }
  (s.setFiring [⟨52816, 15, 0⟩]).setChannel 3 (f (gallery.channel 3))

theorem witness_OfferIsDecidedByTheChannel :
    (((offering .play ({ · with kind := .none })).cue? 15 0).map (fun q => q.resolved) = some (some entry2) ∧
        ((offering .play ({ · with kind := .none })).channel 3).kind = .none) ∧
      (Action.pulse ∉ [Action.load, .play, .stop] ∧ (gallery.channel 3).kind.allows .play = true) ∧
      (((offering .play ({ · with state := .faulted, faultMode := .latch })).channel 3).state = .faulted) ∧
      (((offering .play ({ · with queue := List.replicate 8 (queuedAt 0 .load 52810) })).channel 3).queue.length = 8) ∧
      (let x := (offering .play ({ · with state := .busy, queue := List.replicate 7 (queuedAt 0 .load 52810) })).channel 3
       x.queue.length < 8 ∧ x.state ≠ .ready) ∧
      (let x := (offering .play id).channel 3
       x.queue = [] ∧ x.state = .ready) ∧
      (queuedAt 0 .load 52810).mode = .answer ∧ Mode.timed ≠ .answer ∧ ¬(0 : Nat) ≠ 0 := by decide +kernel

/-- The scheduler's frame work due. -/
def scheduling (sfc : Frame) : State := looked { preloaded with sfc := sfc, due := [.scheduler] }

theorem witness_SchedulerOffersAndTakesCompletions :
    ((scheduling 52815).held = false ∧ .scheduler ∈ (scheduling 52815).due ∧
        ∀ e ∈ (scheduling 52815).firing, (scheduling 52815).reachedAtWork e.fire = false) ∧
      ((scheduling 52816).cuesDone = [] ∧ (scheduling 52816).firing = ⟨52816, 15, 1⟩ :: [] ∧ (scheduling 52816).reachedAtWork 52816 = true) ∧
      (let s := (preloaded.setCueState 15 0 .sent).setCuesDone [⟨⟨15, 11, 0⟩, .failed .timeout⟩]
       (s.slot 15).isLive = true ∧ (s.slot 15).airing = 11 ∧ (s.cue? 15 0).map (fun q => q.state) = some .sent) ∧
      ((preloaded.slot 4).isLive = true ∧ (preloaded.slot 4).airing ≠ 11) ∧ (preloaded.slot 100).isLive = false ∧
      (preloaded.cue? 15 0).map (fun q => q.state) = some .queued ∧
      (let s := ((scheduling 52816).setFiring [⟨52815, 15, 0⟩, ⟨52816, 15, 1⟩]).setCuesDone [⟨⟨15, 10, 0⟩, .done⟩]
       s.held = false ∧ .scheduler ∈ s.due ∧ s.cuesDone ≠ [] ∧
         s.firing.filter (fun e => s.reachedAtWork e.fire) = [⟨52815, 15, 0⟩, ⟨52816, 15, 1⟩]) := by decide +kernel

/-! ### Routes -/

theorem witness_RouteTestAnswersTheFirstEntryThatServes :
    gallery.portFree ∧ (gallery.route 2).serves 4101 .play .a ∧ (∀ m, m < 2 → ¬(gallery.route m).serves 4101 .play .a) ∧
      (∀ n, ¬(gallery.route n).serves 4101 .pulse .a) ∧ gallery.defaultRoute.enabled = false ∧
      ({ gallery with defaultRoute := ⟨true, {}⟩ } : State).defaultRoute.enabled = true := by
  dsimp only [State.portFree, Route.serves, Route.hits]; decide +kernel

/-- Route settings with every number above its range. -/
def routeOver : RouteSettings := ⟨1, 65535, 65535, 3, 63, ⟨11, 16, 2, 256, 256, 16, 256⟩⟩

theorem witness_RouteWriteAndRead :
    (gallery.portFree ∧ 0 < 4095 ∧ 4095 < 4096 ∧ ¬deliveryBad routeOver.delivery 4095 5 ∧ routeOver.enabled < 2 ∧ routeOver.tracks < 4 ∧
        routeOver.actions < 64) ∧
      (⟨11, 15, .early, 255, 255, 15, 255⟩ : Delivery).GivenBy (gallery.route 0).delivery routeOver.delivery 4095 5 ∧
      deliveryBad ⟨12, 0, 0, 0, 0, 0, 0⟩ 32 5 ∧ deliveryBad ⟨0, 0, 3, 0, 0, 0, 0⟩ 128 5 := by
  refine ⟨?_, ⟨by decide, by decide, by decide, by decide, by decide, by decide, by decide⟩, ?_⟩
  · dsimp only [State.portFree, deliveryBad]; decide +kernel
  · dsimp only [deliveryBad]; decide +kernel

theorem witness_RouteWriteAndRead_global :
    (∃ t, exec (.routeWrite 0 4 routeOver) gallery = .next t) ∧ (Instr.spelled (.routeWrite 0 4 routeOver)).isReset = false ∧
      (∃ t, exec .powerOn gallery = .next t) ∧ heldReset.held = true ∧ (∃ t, exec .rstRelease heldReset = .next t) ∧ gallery.portFree := by
  refine ⟨⟨_, rfl⟩, by decide +kernel, ⟨_, rfl⟩, by decide +kernel, ⟨_, rfl⟩, ?_⟩
  dsimp only [State.portFree]; decide +kernel

/-! ### Channels -/

theorem witness_ChannelConfigSetsTheNamedFields :
    (answering.portFree ∧ channelKindOf 0 = some .none ∧ faultModeOf 3 = some .ignore ∧ (answering.channel 3).state ≠ .offline) ∧
      ((gallery.channel 0).state = .offline ∧ channelKindOf 4 = some .aux) ∧
      (faultModeOf 0 = some .latch ∧ ((gallery.setChannel 3 { gallery.channel 3 with state := .faulted }).channel 3).state = .faulted) ∧
      (0 < 31 ∧ 31 < 32 ∧ (31).testBit 0 = true ∧ (31).testBit 1 = true ∧ (2).testBit 0 = false) := by
  dsimp only [State.portFree]; decide +kernel

theorem witness_ChannelClearAndRead :
    (gallery.portFree ∧ (gallery.channel 0).state = .offline ∧ (gallery.channel 3).state = .ready) ∧
      ((recovering 200 []).channel 3).state = .recovering ∧ ((recovering 200 []).channel 3).queue = [] ∧
      (((recovering 200 [queuedAt 1 .play 52816]).channel 3).queue = queuedAt 1 .play 52816 :: [] ∧ (queuedAt 1 .play 52816).runs) ∧
      (let q : Queued := { queuedAt 1 .play 52816 with mode := .timed, guard := 0 }
       ((recovering 200 [q, q]).channel 3).state = .recovering ∧ ((recovering 200 [q, q]).channel 3).queue = q :: [q] ∧ ¬q.runs) := by
  dsimp only [State.portFree, Queued.runs]; decide +kernel

theorem witness_DeviceFramesActOnTheCommand :
    (gallery.held = false ∧ gallery.rx (.device 0) = .hunting ∧ (gallery.channel 0).state = .offline ∧
        incomingSize (.device 0) 0x90 = none ∧ (List.replicate 255 (0 : Byte)).length < 256) ∧
      (answering.rx (.device 3) = .hunting ∧ (answering.channel 3).state = .busy ∧
        ((answering.channel 3).command.map (fun k => (k.tag.setWidth 8, k.mode, k.guard))) = some (5, .answer, 0) ∧
        (answering.channel 3).queue = queuedAt 1 .play 52816 :: [] ∧ (queuedAt 1 .play 52816).mode = .answer) ∧
      (((timed 4).channel 3).command.map (fun k => (k.tag.setWidth 8, k.mode))) = some (5, .timed) ∧
      (gallery.channel 3).state ≠ .busy ∧ (gallery.channel 3).state ≠ .faulted ∧
      ((gallery.setChannel 3 { gallery.channel 3 with state := .faulted }).channel 3).state = .faulted := by decide +kernel

/-- Channel 3 with nothing queued and neither silence nor polls to come, at the last frame before an answer timeout. -/
def waiting (m : FaultMode) : State :=
  answering.setChannel 3 { answering.channel 3 with queue := [], pollInterval := 0, silentLimit := 0, faultMode := m }

theorem witness_CommandTimersEndTheCommand :
    (∀ m ∈ [FaultMode.latch, .retry, .report, .ignore], (waiting m).held = false ∧ .channel 3 ∈ (waiting m).due ∧
        ((waiting m).channel 3).state = .busy ∧ ((waiting m).channel 3).queue = [] ∧ ((waiting m).channel 3).silentLimit = 0 ∧
        ((waiting m).channel 3).pollInterval = 0 ∧ ((waiting m).channel 3).faultMode = m ∧ ((waiting m).channel 3).begun = false ∧
        (((waiting m).channel 3).command.map (fun k => (k.mode, k.busy + 1, k.answerTimeout))) = some (.answer, 10, 10)) ∧
      (((timed 4).channel 3).command.map (fun k => (k.mode, k.busy + 1, k.dwell))) = some (.timed, 5, 5) ∧
      (((timed 3).channel 3).command.map (fun k => (k.mode, k.busy + 1, k.dwell))) = some (.timed, 4, 5) ∧
      ({ (timed 4).channel 3 with begun := true } : Channel).begun = true ∧
      ((answering.channel 3).queue ≠ [] ∧ (answering.channel 3).begun = false ∧
        (answering.channel 3).command.map (fun k => (k.mode, k.busy + 1, k.answerTimeout)) = some (.answer, 10, 10)) := by
  decide +kernel

theorem witness_ChannelCountsRunOut :
    (let s := recovering 250 [queuedAt 1 .play 52816]
     s.held = false ∧ .channel 3 ∈ s.due ∧ (s.channel 3).state ≠ .offline ∧
       ((queuedAt 1 .play 52816).tolerance : Int) < frameDiff s.sfc (queuedAt 1 .play 52816).fire ∧
       frameDiff s.sfc (queuedAt 1 .play 52817).fire ≤ (queuedAt 1 .play 52817).tolerance) ∧
      (let s := (recovering 1 []).setChannel 3 { (recovering 1 []).channel 3 with silentLimit := 0, pollInterval := 0 }
       (s.channel 3).queue = [] ∧ (s.channel 3).state = .recovering ∧ (s.channel 3).recovery ≤ 1 ∧ (s.channel 3).begun = false) ∧
      (((guarding 1).channel 3).state = .guard ∧ ((guarding 1).channel 3).guard ≤ 1 ∧ ((guarding 1).channel 3).begun = false ∧ 1 < ((guarding 2).channel 3).guard) ∧
      1 < ((recovering 2 []).channel 3).recovery ∧
      (let x := (idle 99 24).channel 3
       x.state = .ready ∧ x.queue = [] ∧ x.command = none ∧ x.silentLimit ≠ 0 ∧ x.silentLimit ≤ x.silent + 1 ∧ x.silent < 1023 ∧
         x.pollInterval ≠ 0 ∧ x.pollInterval ≤ x.poll + 1) ∧
      (let x := (idle 98 23).channel 3
       x.silent + 1 < x.silentLimit ∧ x.poll + 1 < x.pollInterval) ∧
      (let x := (idle 1023 24).channel 3
       x.silentLimit ≠ 0 ∧ x.silentLimit ≤ min 1023 (x.silent + 1) ∧
         ((after (.silentFault 3) (idle 1023 24)).channel 3).silent = 0) ∧
      (let q : Queued := { queuedAt 1 .play 52820 with mode := .timed, guard := 0 }
       let s := (recovering 1 [q, q]).setChannel 3 { (recovering 1 [q, q]).channel 3 with silentLimit := 0, pollInterval := 0 }
       (s.channel 3).queue = q :: [q] ∧ ¬q.runs ∧ frameDiff s.sfc q.fire ≤ q.tolerance ∧ (s.channel 3).recovery ≤ 1 ∧
         ((after (.recoveryExpiry 3) s).channel 3).state = .ready ∧ ((after (.recoveryExpiry 3) s).channel 3).queue = []) ∧
      (let s := (guarding 2).setChannel 3 { (guarding 2).channel 3 with silentLimit := 5, silent := 1023 }
       (s.channel 3).state = .guard ∧ 1 < (s.channel 3).guard ∧ (s.channel 3).silentLimit ≤ min 1023 ((s.channel 3).silent + 1)) := by
  dsimp only [Queued.runs]; decide +kernel

/-! ### Lights, displays, the prompter and the links -/

/-- Track A with item 12 READY and nothing on air: position 2 on STANDBY. -/
def standby (phase : Nat) (changed : Bool) : State :=
  (trackA ({ · with onAir := none, ready := some 12 })).setLight 2 ⟨.standby, phase, true, changed⟩

theorem witness_LightsFollowTheirStatesAndPatterns :
    ((gallery.presenter 0).enabled = false ∧ (gallery.presenter 2).enabled = true ∧ (gallery.track .a).onAir = some 10 ∧
        (gallery.slot 10).fields.presenter = some 2 ∧ gallery.remaining (gallery.slot 10) = 250 ∧ (gallery.presenter 2).wrap = 250) ∧
      (let s := { gallery with sfc := 49999 }
       (s.presenter 2).wrap < s.remaining (s.slot 10) ∧ (s.track .b).onAir = some 30 ∧ (s.slot 30).fields.presenter ≠ some 2) ∧
      (((standby 0 true).track .a).onAir = none ∧ ((standby 0 true).track .a).ready = some 12 ∧
        ((standby 0 true).slot 12).fields.presenter = some 2 ∧ ((standby 0 true).slot 31).fields.presenter ≠ some 2) ∧
      ((standby 22 false).light 2).phase + 1 < 12 + 12 ∧ 12 + 12 ≤ ((standby 23 false).light 2).phase + 1 ∧
      ((gallery.slot 10).state = .onAir ∧ (gallery.slot 10).start = some 49000) := by decide +kernel

theorem witness_DisplayRotationSendsOneFrame :
    (∀ p, (State.reset.presenter p).enabled = false) ∧
      ((gallery.presenter (gallery.rotation + 2)).enabled = true ∧
        ∀ m : Pos, m < 2 → (gallery.presenter (gallery.rotation + m)).enabled = false) ∧
      ((gallery.runWork .outputs).light (gallery.rotation + 2)).shown = .wrap ∧
      (((standby 0 false).runWork .outputs).light 2).shown = .standby ∧ ((standby 0 false).slot 12).track = .a ∧
      ((standby 0 false).derived 12).front = some 50003 := by decide +kernel

/-- READY items of both tracks name position 2. -/
def bothReady : State := (standby 0 false).setTrack .b { ready := some 32, hardOut := some 60000, takeDelay := 1 }

theorem witness_DisplayRotationSendsOneFrame_both :
    ((bothReady.runWork .outputs).light 2).shown = .standby ∧ (bothReady.track .a).ready = some 12 ∧
      (bothReady.track .b).ready = some 32 ∧ (bothReady.slot 32).fields.presenter = some 2 ∧ (bothReady.slot 32).track = .b ∧
      (bothReady.derived 12).front = some 50003 ∧ (bothReady.derived 32).front.isSome = true := by decide +kernel

theorem witness_EndReportSetsThePrompterEnd :
    (gallery.held = false ∧ gallery.rx .prompter = .hunting ∧ (0 : Byte).toNat = trackCode .a ∧ (gallery.track .a).onAir = some 10 ∧
        (gallery.slot 10).fields.script = some 510 ∧ (gallery.slot 10).prompterEnd = none) ∧
      (gallery.slot 10).fields.script ≠ some 511 ∧ (∀ t, (2 : Byte).toNat ≠ trackCode t) := by
  refine ⟨by decide +kernel, by decide +kernel, ?_⟩
  intro t; cases t <;> decide

theorem witness_LinksCarryWholeFramesInOrder :
    (gallery.held = false ∧ (gallery.tx .display).sending = none) ∧
      (let x : Transmit := ⟨some .poll, List.replicate 63 .poll⟩
       x.sending ≠ none ∧ x.queue.length < 64) ∧
      (let x : Transmit := ⟨some .poll, List.replicate 64 .poll⟩
       x.sending ≠ none ∧ 64 ≤ x.queue.length) ∧
      gallery.rx (.device 3) = .hunting ∧ (Instr.discardedLinkFrame (.device 3) [1, 2]).wellFormed = true ∧
      0xC3#8 ∉ ([1, 2] : List Byte) := by decide +kernel

/-! ### The part-wide configuration, and what every step keeps -/

/-- Part settings with every number above its range. -/
def partOver : PartSettings := ⟨1023, 5, 16, 1, ⟨11, 16, 2, 256, 256, 16, 256⟩⟩

theorem witness_PartConfigSetsTheNamedFields :
    (gallery.portFree ∧ 0 < 2047 ∧ 2047 < 2048 ∧ ¬deliveryBad partOver.delivery 2047 4 ∧ partOver.mask < 1024 ∧ partOver.routeEnabled < 2 ∧
        frameRateOf partOver.frameRate = some .r60 ∧ FrameRate.r60 ≠ gallery.frameRate ∧ gallery.reference = .flywheel) ∧
      (⟨11, 15, .early, 255, 255, 15, 255⟩ : Delivery).GivenBy gallery.defaultRoute.delivery partOver.delivery 2047 4 ∧
      deliveryBad ⟨12, 0, 0, 0, 0, 0, 0⟩ 16 4 ∧ locked.reference = .locked := by
  refine ⟨?_, ⟨by decide, by decide, by decide, by decide, by decide, by decide, by decide⟩, ?_⟩
  · dsimp only [State.portFree, deliveryBad]; decide +kernel
  · dsimp only [deliveryBad]; decide +kernel

theorem witness_EveryStepKeepsTheStoryKeysDistinct :
    ({ single with pending := [.itemRead 0] } : State).KeysDistinct ∧ ∃ t, step { single with pending := [.itemRead 0] } = .next t :=
  ⟨single_keysDistinct, _, rfl⟩

theorem witness_EveryStepKeepsTheItemTableSound :
    ({ small with pending := [.trackReset 0] } : State).Sound ∧ ∃ t, step { small with pending := [.trackReset 0] } = .next t :=
  ⟨⟨small_sound.nodup, small_sound.orders, small_sound.staged, small_sound.reservedOnce, small_sound.reservedApart,
    small_sound.creates, small_sound.lists, small_sound.createdFor, small_sound.drawn, small_sound.idle, by decide +kernel, by decide +kernel,
    small_sound.queueOnce, small_sound.queues, small_sound.boundary, small_sound.onAir, small_sound.ready, small_sound.first⟩, _, rfl⟩

theorem witness_EveryStepKeepsTheRanges :
    ({ small with pending := [.itemRead 0] } : State).InRange ∧ ∃ t, step { small with pending := [.itemRead 0] } = .next t :=
  ⟨⟨small_inRange.items, small_inRange.staged, small_inRange.presenters, small_inRange.tracks, small_inRange.looks, small_inRange.routes,
    small_inRange.defaultRoute, small_inRange.channels, small_inRange.counts, small_inRange.lights, small_inRange.transmit,
    small_inRange.idleLink, small_inRange.debounceLow, small_inRange.debounceHigh, small_inRange.panel, small_inRange.qualifying,
    small_inRange.locked, small_inRange.global⟩, _, rfl⟩

end Sys2Proof.Tests
end

section
/-! SUPPORT. The edit group requests at a free port, and what freeing a group's slots and making it IDLE leave (R26, R35, R37, R38). -/

namespace Sys2Proof.Machine

variable {s : State} {g : GroupNo}

/-! ### The requests at a free port -/

/-- A request that finds the port free is its rule, served on the state with the transaction's bytes shifted out. -/
theorem exec_atPort {c : Instr} (hc : c.isRequest = true) (hu : ∀ n bytes part, c ≠ .unknownRequest n bytes part) (h : s.portFree) :
    exec c s = .next ((s.select c.writeLength).serve c).buffered := by
  rw [Instr.exec_request hc hu, State.request_free h]

theorem exec_groupOpen (h : s.portFree) (n t : Nat) :
    exec (.groupOpen n t) s = .next ((s.select 3).serveGroupOpen n t).buffered := exec_atPort rfl nofun h

theorem exec_groupLaunch (h : s.portFree) (n m : Nat) :
    exec (.groupLaunch n m) s = .next ((s.select 3).serveGroupLaunch n m).buffered := exec_atPort rfl nofun h

theorem exec_groupDiscard (h : s.portFree) (n : Nat) :
    exec (.groupDiscard n) s = .next ((s.select 2).serveGroupDiscard n).buffered := exec_atPort rfl nofun h

theorem exec_groupRead (h : s.portFree) (n : Nat) :
    exec (.groupRead n) s = .next ((s.select 2).serveGroupRead n).buffered := exec_atPort rfl nofun h

theorem exec_stagedEdit (h : s.portFree) (n : Nat) (e : Edit) :
    exec (.stagedEdit n e) s = .next ((s.select (writeLengthOf e)).serveEdit n e).buffered := exec_atPort rfl nofun h

/-! ### Reserved slots made free (R35, R37) -/

@[simp] theorem State.freeReserved_cons (s : State) (i : Slot) (l : List Slot) :
    s.freeReserved (i :: l) = (s.setSlot i (s.slot i).freed).freeReserved l := rfl

/-- Freeing slots reaches the item table alone. -/
theorem State.freeReserved_eq (s : State) (l : List Slot) : s.freeReserved l = { s with slots := (s.freeReserved l).slots } := by
  induction l generalizing s with
  | nil => rfl
  | cons i l ih => exact ih _

theorem State.freeReserved_slot_of_notMem {i : Slot} {l : List Slot} (h : i ∉ l) (s : State) :
    (s.freeReserved l).slot i = s.slot i := by
  induction l generalizing s with
  | nil => rfl
  | cons j l ih =>
    obtain ⟨hj, hl⟩ := not_or.mp (mt List.mem_cons.mpr h)
    rw [State.freeReserved_cons, ih hl, State.setSlot_slot_ne _ _ _ hj]

theorem State.freeReserved_slot_of_mem {i : Slot} {l : List Slot} (h : i ∈ l) (s : State) :
    (s.freeReserved l).slot i = (s.slot i).freed := by
  induction l generalizing s with
  | nil => cases h
  | cons j l ih =>
    rw [State.freeReserved_cons]
    by_cases hl : i ∈ l
    · rw [ih hl, State.setSlot_slot]
      split
      · next e => rw [e]; rfl
      · rfl
    · obtain rfl : i = j := (List.mem_cons.mp h).resolve_right hl
      rw [State.freeReserved_slot_of_notMem hl, State.setSlot_slot_self]

@[simp] theorem State.freeReserved_group (s : State) (l : List Slot) (h : GroupNo) : (s.freeReserved l).group h = s.group h := by
  rw [State.freeReserved_eq]; rfl

@[simp] theorem State.freeReserved_armedQueue (s : State) (l : List Slot) (t : Track) :
    (s.freeReserved l).armedQueue t = s.armedQueue t := by
  rw [State.freeReserved_eq]; rfl

/-! ### A group made IDLE (R25, R34) -/

/-- Making a group IDLE reaches the groups and the armed queues alone. -/
theorem State.idleGroup_eq (s : State) (g : GroupNo) (x : LastResult) :
    s.idleGroup g x = { s with groups := (s.idleGroup g x).groups, armed := (s.idleGroup g x).armed } := rfl

@[simp] theorem State.idleGroup_slot (s : State) (g : GroupNo) (x : LastResult) (i : Slot) : (s.idleGroup g x).slot i = s.slot i := rfl

@[simp] theorem State.idleGroup_group_self (s : State) (g : GroupNo) (x : LastResult) :
    (s.idleGroup g x).group g = (s.group g).toIdle x := State.setGroup_group_self _ _ _

theorem State.idleGroup_group_ne (s : State) {g h : GroupNo} (x : LastResult) (hne : h ≠ g) :
    (s.idleGroup g x).group h = s.group h := State.setGroup_group_ne _ _ _ hne

@[simp] theorem State.idleGroup_queue_self (s : State) (g : GroupNo) (x : LastResult) :
    (s.idleGroup g x).armedQueue (s.group g).track = (s.armedQueue (s.group g).track).filter (fun h => decide (h ≠ g)) :=
  State.setArmed_armedQueue_self _ _ _

theorem State.idleGroup_queue_ne (s : State) (g : GroupNo) (x : LastResult) {t : Track} (hne : t ≠ (s.group g).track) :
    (s.idleGroup g x).armedQueue t = s.armedQueue t := State.setArmed_armedQueue_ne _ _ _ hne

/-! ### GROUP.OPEN (R26) -/

theorem State.serveGroupOpen_idle (h : (s.group g).state = .idle) (t : Track) :
    s.serveGroupOpen g.val (trackCode t) = (s.setGroup g ((s.group g).openFor t)).accept false
      (.groupOpened g (s.setGroup g ((s.group g).openFor t)).freeStaging) := by
  simp [State.serveGroupOpen, h]

theorem State.serveGroupOpen_busy (h : (s.group g).state ≠ .idle) (t : Track) :
    s.serveGroupOpen g.val (trackCode t) = s.refuse .state := by
  simp [State.serveGroupOpen, h]

theorem State.serveGroupOpen_range {n t : Nat} (h : 4 ≤ n ∨ 2 ≤ t) : s.serveGroupOpen n t = s.refuse .range := by
  unfold State.serveGroupOpen
  rcases h with h | h
  · rw [idOf_of_le h, State.ranged_none]
  · rw [trackOf_of_le h]
    cases idOf 4 n <;> rfl

theorem exec_groupOpen_idle (hp : s.portFree) (h : (s.group g).state = .idle) (t : Track) :
    ∃ u, exec (.groupOpen g.val (trackCode t)) s = .next u ∧
      u = { s.answeredWith 3 .ok (.groupOpened g u.freeStaging) with groups := u.groups } ∧
      u.group g = { s.group g with state := .opened, track := t, launch := none, edits := [], last := .none } ∧
      ∀ h, h ≠ g → u.group h = s.group h := by
  refine ⟨_, by rw [exec_groupOpen hp, State.serveGroupOpen_idle (s := s.select 3) h], rfl, ?_, ?_⟩
  · exact State.setGroup_group_self _ _ _
  · exact fun k hk => State.setGroup_group_ne _ _ _ hk

/-! ### GROUP.DISCARD (R37) -/

theorem State.serveGroupDiscard_idle (h : (s.group g).state = .idle) : s.serveGroupDiscard g.val = s.refuse .state := by
  simp [State.serveGroupDiscard, h]

theorem State.serveGroupDiscard_open (h : (s.group g).state ≠ .idle) :
    s.serveGroupDiscard g.val = (s.discardGroup g).accept false (.discarded (s.discardGroup g).freeStaging) := by
  simp [State.serveGroupDiscard, h]

/-- A discard reaches the item table, the groups and the armed queues alone (R37). -/
theorem State.discardGroup_eq (s : State) (g : GroupNo) : s.discardGroup g =
    { s with slots := (s.discardGroup g).slots, groups := (s.discardGroup g).groups, armed := (s.discardGroup g).armed } := by
  rw [State.discardGroup, State.idleGroup_eq, State.freeReserved_eq]

theorem State.discardGroup_group_self (s : State) (g : GroupNo) : (s.discardGroup g).group g = (s.group g).toIdle .none := by
  rw [State.discardGroup, State.idleGroup_group_self, State.freeReserved_group]

theorem State.discardGroup_group_ne (s : State) {g h : GroupNo} (hne : h ≠ g) : (s.discardGroup g).group h = s.group h := by
  rw [State.discardGroup, State.idleGroup_group_ne _ _ hne, State.freeReserved_group]

theorem State.discardGroup_slot_of_mem (s : State) {i : Slot} (h : i ∈ (s.group g).reserved) :
    (s.discardGroup g).slot i = (s.slot i).freed := State.freeReserved_slot_of_mem h s

theorem State.discardGroup_slot_of_notMem (s : State) {i : Slot} (h : i ∉ (s.group g).reserved) :
    (s.discardGroup g).slot i = s.slot i := State.freeReserved_slot_of_notMem h s

theorem State.discardGroup_queue_self (s : State) (g : GroupNo) :
    (s.discardGroup g).armedQueue (s.group g).track = (s.armedQueue (s.group g).track).filter (fun h => decide (h ≠ g)) := by
  have h := State.idleGroup_queue_self (s.freeReserved (s.group g).reserved) g .none
  rwa [State.freeReserved_group, State.freeReserved_armedQueue] at h

theorem State.discardGroup_queue_ne (s : State) (g : GroupNo) {t : Track} (hne : t ≠ (s.group g).track) :
    (s.discardGroup g).armedQueue t = s.armedQueue t := by
  rw [State.discardGroup, State.idleGroup_queue_ne _ _ _ (by rwa [State.freeReserved_group]), State.freeReserved_armedQueue]

theorem exec_groupDiscard_discards (hp : s.portFree) (h : (s.group g).state ≠ .idle) :
    exec (.groupDiscard g.val) s =
      .next (((s.select 2).discardGroup g).accept false (.discarded ((s.select 2).discardGroup g).freeStaging)).buffered := by
  rw [exec_groupDiscard hp, State.serveGroupDiscard_open (s := s.select 2) h]

theorem exec_groupDiscard_open (hp : s.portFree) (h : (s.group g).state ≠ .idle) :
    ∃ u, exec (.groupDiscard g.val) s = .next u ∧
      u = { s.answeredWith 2 .ok (.discarded u.freeStaging) with slots := u.slots, groups := u.groups, armed := u.armed } ∧
      u.group g = { s.group g with state := .idle, edits := [], reserved := [], reservedEntries := 0, last := .none } ∧
      (∀ h, h ≠ g → u.group h = s.group h) ∧
      (∀ i, i ∈ (s.group g).reserved → u.slot i = { revision := (s.slot i).revision, airing := (s.slot i).airing }) ∧
      (∀ i, i ∉ (s.group g).reserved → u.slot i = s.slot i) ∧
      u.armedQueue (s.group g).track = (s.armedQueue (s.group g).track).filter (fun h => decide (h ≠ g)) ∧
      ∀ v, v ≠ (s.group g).track → u.armedQueue v = s.armedQueue v := by
  refine ⟨_, exec_groupDiscard_discards hp h, ?_,
    (s.select 2).discardGroup_group_self g, fun _ => (s.select 2).discardGroup_group_ne,
    fun _ => (s.select 2).discardGroup_slot_of_mem, fun _ => (s.select 2).discardGroup_slot_of_notMem,
    (s.select 2).discardGroup_queue_self g, fun _ => (s.select 2).discardGroup_queue_ne g⟩
  exact congrArg (fun u : State => { u with buffer := .ready ⟨.ok, .discarded ((s.select 2).discardGroup g).freeStaging⟩ })
    (State.discardGroup_eq (s.select 2) g)

/-! ### GROUP.READ (R38) -/

theorem mem_ascending {i : Slot} {l : List Slot} : i ∈ ascending l ↔ i ∈ l := by simp [ascending]

theorem ascending_pairwise (l : List Slot) : (ascending l).Pairwise (· < ·) := (List.pairwise_lt_finRange 512).filter _

theorem State.placeOf_armed {before after : List GroupNo} (h : (s.group g).state = .armed)
    (hq : s.armedQueue (s.group g).track = before ++ g :: after) (hb : g ∉ before) : s.placeOf g = some before.length := by
  simp [State.placeOf, h, hq, List.idxOf_append_of_notMem hb]

theorem State.placeOf_of_ne (h : (s.group g).state ≠ .armed) : s.placeOf g = none := by simp [State.placeOf, h]

theorem exec_groupRead_eq (hp : s.portFree) (g : GroupNo) :
    exec (.groupRead g.val) s = .next (s.answeredWith 2 .ok (.groupRead (s.groupReport g))) := by
  rw [exec_groupRead hp, State.serveGroupRead, idOf_val, State.ranged_some]
  rfl

end Sys2Proof.Machine

namespace Sys2Proof

open Sys2Proof.Machine

/-- Settles O19: each request by the branch of its rule, with what freeing slots and making a group IDLE leave. -/
theorem groupOpenDiscardAndRead : Obligations.GroupOpenDiscardAndRead := by
  intro s g hp
  refine ⟨fun t h => exec_groupOpen_idle hp h t, ?_, ?_, fun h => exec_groupDiscard_open hp h, ?_, ?_, ?_, ?_⟩
  · intro t h
    rw [exec_groupOpen hp, State.serveGroupOpen_busy (s := s.select 3) h, State.refuse_buffered]
  · intro n t h
    rw [exec_groupOpen hp, State.serveGroupOpen_range h, State.refuse_buffered]
  · intro h
    rw [exec_groupDiscard hp, State.serveGroupDiscard_idle (s := s.select 2) h, State.refuse_buffered]
  · intro n h
    rw [exec_groupDiscard hp, State.serveGroupDiscard, idOf_of_le h, State.ranged_none, State.refuse_buffered]
  · exact ⟨s.placeOf g, ascending (s.group g).reserved, exec_groupRead_eq hp g, State.placeOf_of_ne,
      fun before after h hq hb => State.placeOf_armed h hq hb, ascending_pairwise _, fun i => mem_ascending⟩
  · intro n h
    rw [exec_groupRead hp, State.serveGroupRead, idOf_of_le h, State.ranged_none, State.refuse_buffered]

end Sys2Proof
end

section
/-! SUPPORT. What an abandonment leaves where no READY channel has a cue queued, and that one with no cue waiting changes nothing (R100,
R101, R118). -/

namespace Sys2Proof.Machine

variable {s u v : State} {i : Slot}

/-! ### The arbiter at rest, and a cue withdrawn from its queue -/

/-- The arbiter of a channel that is not READY, or has nothing queued, does nothing (R121). -/
theorem State.grant_idle {c : Chan} (h : (s.channel c).state = .ready → (s.channel c).queue = []) : s.grant c = s := by
  unfold State.grant
  by_cases hr : (s.channel c).state = .ready
  · rw [h hr]; rfl
  · cases (s.channel c).queue.length with
    | zero => rfl
    | succ n => rw [State.grantChain, if_neg hr]

/-- Without a READY channel that has cues queued, a withdrawal takes the cue out of its queue and does nothing else (R100). -/
theorem State.withdraw_idle (h : s.QueuesIdle) (c : Chan) (i : Slot) (k : Nat) :
    s.withdraw c i k = s.setChannel c { s.channel c with
      queue := (s.channel c).queue.filter (fun q => !(decide (q.cue.slot = i) && decide (q.cue.index = k))) } := by
  refine State.grant_idle fun hr => ?_
  simp only [State.setChannel_channel_self] at hr ⊢
  simp [h c hr]

/-- A cue that does not wait is abandoned by leaving everything as it is (R100). -/
theorem State.abandonCue_eq_self {k : Nat} (h : ∀ q, s.cue? i k = some q → q.state ≠ .armed ∧ q.state ≠ .queued) :
    State.abandonCue i s k = s := by
  unfold State.abandonCue
  split
  · rfl
  · next q hq =>
    obtain ⟨ha, hb⟩ := h q hq
    split
    · next e => exact absurd e ha
    · next e => exact absurd e hb
    · rfl

/-- Abandoning the cues of an item none of which waits changes nothing. -/
theorem State.abandon_noneWaiting (h : s.noneWaiting i) (which : Cue → Bool) : s.abandon i which = s := by
  have hq : ∀ k q, s.cue? i k = some q → q.state ≠ .armed ∧ q.state ≠ .queued := fun k q hk => h q (List.mem_of_getElem? hk)
  unfold State.abandon
  generalize (List.range (s.slot i).cues.length).filter _ = l
  induction l with
  | nil => rfl
  | cons k l ih => rw [List.foldl_cons, State.abandonCue_eq_self (hq k), ih]

/-! ### The cues at some indexes abandoned -/

/-- The cues of item `i` at the chosen indexes have been abandoned, and nothing else has changed (R100). -/
structure State.AbandonedAt (s u : State) (i : Slot) (chosen : Nat → Bool) : Prop where
  item : u.slot i = { s.slot i with cues := (s.slot i).cues.mapIdx (fun k q => Cue.abandonedIf (fun _ => chosen k) q) }
  others : ∀ j, j ≠ i → u.slot j = s.slot j
  firing : u.firing = s.firing.filter (fun e =>
    !(decide (e.slot = i) && (chosen e.index && (s.cue? i e.index).any (fun q => decide (q.state = .armed)))))
  queues : ∀ c, u.channel c = { s.channel c with
    queue := (s.channel c).queue.filter (fun x =>
      !(decide (x.cue.slot = i) && (chosen x.cue.index && (s.cue? i x.cue.index).any (fun q =>
        decide (q.state = .queued) && q.resolved.any (fun r => decide (r.delivery.channel = c)))))) }
  rest : u = { s with slots := u.slots, firing := u.firing, channels := u.channels }

/-- The cue at an index after the chosen ones have been abandoned. -/
theorem State.AbandonedAt.cue? {chosen : Nat → Bool} (h : s.AbandonedAt u i chosen) (k : Nat) :
    u.cue? i k = (s.cue? i k).map (Cue.abandonedIf (fun _ => chosen k)) := by
  simp [State.cue?, h.item]

/-- A channel that has nothing queued keeps nothing queued. -/
theorem State.AbandonedAt.queuesIdle {chosen : Nat → Bool} (h : s.AbandonedAt u i chosen) (hq : s.QueuesIdle) : u.QueuesIdle := by
  intro c hc
  rw [h.queues c] at hc ⊢
  simp [hq c hc]

/-- Where no chosen cue waits, nothing changes. -/
theorem State.AbandonedAt.of_noneWaiting {chosen : Nat → Bool}
    (h : ∀ k q, chosen k = true → s.cue? i k = some q → q.state ≠ .armed ∧ q.state ≠ .queued) : s.AbandonedAt s i chosen where
  item := by
    have hc : (s.slot i).cues.mapIdx (fun k q => Cue.abandonedIf (fun _ => chosen k) q) = (s.slot i).cues := by
      refine List.ext_getElem (by simp) fun k hk hk' => ?_
      rw [List.getElem_mapIdx, Cue.abandonedIf, if_neg]
      rintro ⟨hck, hw⟩
      obtain ⟨ha, hb⟩ := h k _ hck (List.getElem?_eq_getElem hk')
      exact hw.elim ha hb
    rw [hc]
  others := fun _ _ => rfl
  firing := by
    refine (List.filter_eq_self.mpr fun e _ => ?_).symm
    rw [Bool.not_eq_true', ← Bool.not_eq_true]
    simp only [Bool.and_eq_true, Option.any_eq_true, decide_eq_true_eq]
    rintro ⟨-, hk, q, hq, ha⟩
    exact (h _ q hk hq).1 ha
  queues := fun c => by
    rw [List.filter_eq_self.mpr fun x _ => ?_]
    rw [Bool.not_eq_true', ← Bool.not_eq_true]
    simp only [Bool.and_eq_true, Option.any_eq_true, decide_eq_true_eq]
    rintro ⟨-, hk, q, hq, hb, -⟩
    exact (h _ q hk hq).2 hb
  rest := rfl

/-- A cue chosen twice is abandoned once. -/
theorem Cue.abandonedIf_abandonedIf (a b : Bool) (q : Cue) :
    Cue.abandonedIf (fun _ => b) (Cue.abandonedIf (fun _ => a) q) = Cue.abandonedIf (fun _ => a || b) q := by
  by_cases hw : q.state = .armed ∨ q.state = .queued
  · cases a with
    | false => simp [Cue.abandonedIf]
    | true => simp [Cue.abandonedIf, hw]
  · simp [Cue.abandonedIf, hw]

/-- An abandoned cue is ARMED only if it was, and was not chosen. -/
theorem Cue.abandonedIf_armed (a : Bool) (q : Cue) :
    decide ((Cue.abandonedIf (fun _ => a) q).state = .armed) = (!a && decide (q.state = .armed)) := by
  cases a with
  | false => simp [Cue.abandonedIf]
  | true =>
    by_cases hw : q.state = .armed ∨ q.state = .queued
    · simp [Cue.abandonedIf, hw]
    · obtain ⟨h1, h2⟩ := not_or.mp hw
      simp [Cue.abandonedIf, h1, h2]

/-- An abandoned cue is QUEUED only if it was, and was not chosen. -/
theorem Cue.abandonedIf_queued (a : Bool) (q : Cue) :
    decide ((Cue.abandonedIf (fun _ => a) q).state = .queued) = (!a && decide (q.state = .queued)) := by
  cases a with
  | false => simp [Cue.abandonedIf]
  | true =>
    by_cases hw : q.state = .armed ∨ q.state = .queued
    · simp [Cue.abandonedIf, hw]
    · obtain ⟨h1, h2⟩ := not_or.mp hw
      simp [Cue.abandonedIf, h1, h2]

@[simp] theorem Cue.abandonedIf_resolved (w : Cue → Bool) (q : Cue) : (Cue.abandonedIf w q).resolved = q.resolved := by
  unfold Cue.abandonedIf
  split <;> rfl

theorem State.AbandonedAt.trans {a b : Nat → Bool} (h : s.AbandonedAt u i a) (k : u.AbandonedAt v i b) :
    s.AbandonedAt v i (fun n => a n || b n) where
  item := by
    rw [k.item, h.item]
    simp only [List.mapIdx_mapIdx]
    congr 2
    funext n q
    exact Cue.abandonedIf_abandonedIf _ _ _
  others := fun j hj => (k.others j hj).trans (h.others j hj)
  firing := by
    rw [k.firing, h.firing, List.filter_filter]
    refine List.filter_congr fun e _ => ?_
    rw [h.cue?]
    cases s.cue? i e.index with
    | none => simp
    | some q =>
      simp only [Option.map_some, Option.any_some, Cue.abandonedIf_armed]
      cases a e.index <;> simp
  queues := fun c => by
    rw [k.queues, h.queues]
    simp only [List.filter_filter]
    congr 1
    refine List.filter_congr fun x _ => ?_
    rw [h.cue?]
    cases s.cue? i x.cue.index with
    | none => simp
    | some q =>
      simp only [Option.map_some, Option.any_some, Cue.abandonedIf_queued, Cue.abandonedIf_resolved]
      cases a x.cue.index <;> simp
  rest := by rw [k.rest, h.rest]

/-! ### One cue abandoned -/

/-- A cue made ABANDONED where it waits. -/
theorem State.setCueState_slot_self (s : State) (i : Slot) (k : Nat) (x : CueState) :
    (s.setCueState i k x).slot i = { s.slot i with cues := (s.slot i).cues.modify k (fun q => { q with state := x }) } :=
  State.setSlot_slot_self _ _ _

/-- The list of an item whose cue at one index, which waits, has become ABANDONED. -/
theorem abandonedIf_mapIdx {l : List Cue} {k : Nat} {q : Cue} (hq : l[k]? = some q) (hw : q.state = .armed ∨ q.state = .queued) :
    l.modify k (fun q => { q with state := .abandoned }) = l.mapIdx (fun n q => Cue.abandonedIf (fun _ => decide (n = k)) q) := by
  refine List.ext_getElem? fun n => ?_
  rw [List.getElem?_modify, List.getElem?_mapIdx]
  by_cases e : k = n
  · subst e
    simp [hq, Cue.abandonedIf, hw]
  · have e' : ¬n = k := fun h => e h.symm
    cases l[n]? <;> simp [Cue.abandonedIf, e, e']

theorem State.abandonedAt_armed {k : Nat} {q : Cue} (hq : s.cue? i k = some q) (ha : q.state = .armed) :
    s.AbandonedAt ((s.setCueState i k .abandoned).setFiring (removeFiring i k s.firing)) i (fun n => decide (n = k)) where
  item := by
    rw [State.setFiring_slot, State.setCueState_slot_self, abandonedIf_mapIdx hq (.inl ha)]
  others := fun j hj => State.setSlot_slot_ne _ _ _ hj
  firing := by
    refine List.filter_congr fun e _ => ?_
    by_cases h : e.index = k
    · simp [h, hq, ha]
    · simp [h]
  queues := fun c => by
    rw [List.filter_eq_self.mpr fun x _ => ?_]
    · rfl
    · by_cases h : x.cue.index = k
      · simp [h, hq, ha]
      · simp [h]
  rest := rfl

/-- A QUEUED cue abandoned: it leaves the queue of the channel of its copy, if it has one. -/
theorem State.abandonedAt_queued {k : Nat} {q : Cue} (hq : s.cue? i k = some q) (hb : q.state = .queued)
    (hv : v.slots = (s.setCueState i k .abandoned).slots)
    (hc : ∀ c, v.channel c = { s.channel c with
      queue := (s.channel c).queue.filter (fun x => !(decide (x.cue.slot = i) && (decide (x.cue.index = k) &&
        q.resolved.any (fun r => decide (r.delivery.channel = c))))) })
    (hr : v = { s with slots := v.slots, channels := v.channels }) : s.AbandonedAt v i (fun n => decide (n = k)) where
  item := by
    have e : v.slot i = (s.setCueState i k .abandoned).slot i := by rw [State.slot, hv]; rfl
    rw [e, State.setCueState_slot_self, abandonedIf_mapIdx hq (.inr hb)]
  others := fun j hj => by
    have e : v.slot j = (s.setCueState i k .abandoned).slot j := by rw [State.slot, hv]; rfl
    rw [e]
    exact State.setSlot_slot_ne _ _ _ hj
  firing := by
    rw [List.filter_eq_self.mpr fun e _ => ?_]
    · rw [hr]
    · by_cases h : e.index = k
      · simp [h, hq, hb]
      · simp [h]
  queues := fun c => by
    rw [hc]
    dsimp only
    congr 1
    refine List.filter_congr fun x _ => ?_
    by_cases h : x.cue.index = k
    · simp [h, hq, hb]
    · simp [h]
  rest := by rw [hr]

/-- One cue of an item abandoned (R100). -/
theorem State.abandonedAt_abandonCue (hs : s.QueuesIdle) (i : Slot) (k : Nat) :
    s.AbandonedAt (State.abandonCue i s k) i (fun n => decide (n = k)) := by
  have still (h : ∀ q, s.cue? i k = some q → q.state ≠ .armed ∧ q.state ≠ .queued) :
      s.AbandonedAt s i (fun n => decide (n = k)) :=
    .of_noneWaiting fun n q hn hq => h q (by rwa [of_decide_eq_true hn] at hq)
  unfold State.abandonCue
  split
  · next hq => exact still (by simp [hq])
  · next q hq =>
    split
    · next ha => exact State.abandonedAt_armed hq ha
    · next hb =>
      have hi : (s.setCueState i k .abandoned).QueuesIdle := hs
      dsimp only
      split
      · next r hr =>
        rw [State.withdraw_idle hi]
        refine State.abandonedAt_queued hq hb rfl (fun c => ?_) rfl
        rw [State.setChannel_channel, State.setCueState_channel, hr]
        split
        · next e => subst e; simp
        · next e => simp [Ne.symm e]
      · next hr =>
        refine State.abandonedAt_queued hq hb rfl (fun c => ?_) rfl
        simp [hr]
    · next ha hb =>
      refine still fun p hp => ?_
      obtain rfl : q = p := Option.some.inj (hq.symm.trans hp)
      exact ⟨ha, hb⟩

/-! ### The cues that a test selects abandoned -/

theorem State.abandonedAt_foldl (hs : s.QueuesIdle) (i : Slot) (l : List Nat) :
    s.AbandonedAt (l.foldl (State.abandonCue i) s) i (fun n => decide (n ∈ l)) := by
  induction l generalizing s with
  | nil => exact .of_noneWaiting (by simp)
  | cons k l ih =>
    have h1 := State.abandonedAt_abandonCue hs i k
    have h2 := h1.trans (ih (h1.queuesIdle hs))
    simpa using h2

/-- The indexes at which an abandonment acts are those of the cues that its test selects. -/
theorem State.mem_abandonIndexes {which : Cue → Bool} {k : Nat} :
    k ∈ (List.range (s.slot i).cues.length).filter (fun k => (((s.slot i).cues[k]?).map which).getD false) ↔
      ∃ q, s.cue? i k = some q ∧ which q = true := by
  rw [List.mem_filter, List.mem_range, State.cue?]
  constructor
  · rintro ⟨hk, hw⟩
    rw [List.getElem?_eq_getElem hk] at hw ⊢
    exact ⟨_, rfl, hw⟩
  · rintro ⟨q, hq, hw⟩
    obtain ⟨hk, -⟩ := List.getElem?_eq_some_iff.mp hq
    exact ⟨hk, by simpa [hq] using hw⟩

/-- What an abandonment leaves, where no READY channel has a cue queued (R100, R101). -/
theorem State.abandoned_abandon (hs : s.QueuesIdle) (i : Slot) (which : Cue → Bool) :
    s.Abandoned (s.abandon i which) i which := by
  have h := State.abandonedAt_foldl hs i
    ((List.range (s.slot i).cues.length).filter (fun k => (((s.slot i).cues[k]?).map which).getD false))
  have chosen (k : Nat) (p : Cue → Bool) :
      (decide (k ∈ (List.range (s.slot i).cues.length).filter (fun k => (((s.slot i).cues[k]?).map which).getD false)) &&
        (s.cue? i k).any p) = (s.cue? i k).any (fun q => which q && p q) := by
    simp only [State.mem_abandonIndexes]
    cases s.cue? i k with
    | none => simp
    | some q => simp
  refine ⟨?_, h.others, ?_, fun c => ?_, h.rest⟩
  · rw [State.abandon, h.item]
    dsimp only
    congr 1
    refine List.ext_getElem? fun k => ?_
    simp only [List.getElem?_mapIdx, List.getElem?_map, State.mem_abandonIndexes, State.cue?]
    cases (s.slot i).cues[k]? <;> simp [Cue.abandonedIf]
  · refine h.firing.trans ?_
    simp only [chosen]
  · refine (h.queues c).trans ?_
    simp only [chosen, Bool.and_assoc]

end Sys2Proof.Machine
end

section
/-! SUPPORT. What each item edit does, in the terms of the statements (R13 to R19, R33). -/

namespace Sys2Proof.Machine

variable {s a u : State} {i : Slot}

/-! ### Records after a cue-level operation -/

/-- A record after a cue-level operation, but for its cues and its cue fault. -/
theorem Item.Kept.eq {x y : Item} (h : x.Kept y) : y = { x with cues := y.cues, cueFault := y.cueFault } := by
  cases x; cases y; cases h; simp_all

/-- Cues set PENDING depend on what the host gave alone (R91, R102). -/
theorem map_pend (l : List Cue) : l.map Cue.pend = (l.map Cue.spec).map CueSpec.fresh := by
  rw [List.map_map]; rfl

theorem Item.Kept.freed {x y : Item} (h : x.Kept y) : y.advanceAiring.advanceRevision.freed = x.advanceAiring.advanceRevision.freed := by
  rw [h.eq]; rfl

theorem Item.Kept.recued {x y : Item} (h : x.Kept y) (l : List CueSpec) (c : Bool) : y.recued l c = x.recued l c := by
  rw [h.eq]; cases c <;> rfl

/-- The record of an item restored, in the terms of R18. -/
theorem Item.restored_eq (x : Item) : x.restored =
    { x with revision := nextRevision x.revision, state := .planned, start := none, actual := none, prompterEnd := none
             cueFault := false, cues := x.cues.map Cue.pend } := rfl

theorem Item.Kept.restored {x y : Item} (h : x.Kept y) : y.restored = x.restored := by
  rw [Item.restored_eq, Item.restored_eq, map_pend, map_pend, h.specs]
  rw [h.eq]

/-- The record of an item with its list replaced, in the terms of R19 and R29. -/
theorem Item.recued_eq (x : Item) (l : List CueSpec) (c : Bool) : x.recued l c =
    { x with revision := if c then x.revision else nextRevision x.revision
             airing := if c then x.airing else nextAiring x.airing, cues := l.map CueSpec.fresh, cueFault := false } := by
  cases c <;> rfl

theorem map_spec_fresh (l : List CueSpec) : (l.map CueSpec.fresh).map Cue.spec = l := by
  rw [List.map_map]; exact List.map_id l

/-! ### States whose cues alone have turned -/

/-- A cue-level operation, and then a change of one record, the orders and the tracks. -/
theorem State.CueLevel.turned (h : s.CueLevel a) (hu : u = { a with slots := u.slots, orders := u.orders, tracks := u.tracks })
    (ho : ∀ j, j ≠ i → u.slot j = a.slot j) : s.CuesTurned u i := by
  refine ⟨h.aside.trans ?_, ?_, ?_, ?_, ?_, ?_, ?_, ?_, fun j hj => ?_⟩
  · rw [hu]; constructor <;> rfl
  · rw [hu]; exact h.flags
  · rw [hu]; exact h.groups
  · rw [hu]; exact h.armed
  · rw [hu]; exact h.status
  · rw [hu]; exact h.readsDone
  · rw [hu]; exact h.prompterTx
  · rw [hu]; exact h.buffer
  · rw [ho j hj]; exact ⟨(h.items j).alike, (h.items j).state, (h.items j).airing⟩

theorem State.CuesTurned.cueLevel (h : s.CuesTurned a i) (k : a.CueLevel u) : s.CuesTurned u i where
  aside := h.aside.trans k.aside
  flags := h.flags.trans k.flags
  groups := k.groups.trans h.groups
  armed := k.armed.trans h.armed
  status := k.status.trans h.status
  readsDone := k.readsDone.trans h.readsDone
  prompterTx := k.prompterTx.trans h.prompterTx
  buffer := k.buffer.trans h.buffer
  others := fun j hj => by
    obtain ⟨h1, h2, h3⟩ := h.others j hj
    exact ⟨h1.trans (k.items j).alike, (k.items j).state.trans h2, (k.items j).airing.trans h3⟩

/-- Only one record, the orders and the tracks have changed. -/
theorem State.quietBut_of_eq (hu : u = { s with slots := u.slots, orders := u.orders, tracks := u.tracks })
    (ho : ∀ j, j ≠ i → u.slot j = s.slot j) : s.QuietBut u i :=
  ⟨ho, by rw [hu], by rw [hu], by rw [hu], by rw [hu], by rw [hu]⟩

/-- With no cue of the item waiting, abandoning them all changes nothing. -/
theorem State.abandonAll_noneWaiting (h : s.noneWaiting i) : s.abandonAll i = s := State.abandon_noneWaiting h _

/-! ### ITEM.CREATE, ITEM.UPDATE and ITEM.MOVE (R13, R14, R16) -/

theorem State.effectMade_create (s : State) (i : Slot) (c : Bool) (t : Track) (p : Option Slot) (f : Fields) (l : List CueSpec) :
    s.EffectMade (s.createIn i t p f l) i c (.create t p f l) := rfl

/-- An update loads a script at most, before the record is written (R145). -/
theorem State.reloadScript_eq (s : State) (i : Slot) (p : Patch) :
    s.reloadScript i p = { s with prompterTx := (s.reloadScript i p).prompterTx } := by
  unfold State.reloadScript
  dsimp only
  split
  · split <;> rfl
  · rfl

theorem State.reloadScript_loads {p : Patch} {f : Word32} (hp : p.script = some (some f))
    (hr : (s.track (s.slot i).track).ready = some i) (hf : (s.slot i).fields.script ≠ some f) :
    (s.reloadScript i p).prompterTx = s.prompterTx.push (.loadScript f (s.slot i).track) := by
  simp only [State.reloadScript, hp]
  rw [if_pos ⟨hr, hf⟩]
  rfl

theorem State.reloadScript_keeps {p : Patch} (h : ∀ f, p.script = some (some f) → (s.track (s.slot i).track).ready = some i →
    (s.slot i).fields.script = some f) : (s.reloadScript i p).prompterTx = s.prompterTx := by
  unfold State.reloadScript
  dsimp only
  split
  · next f hf =>
    split
    · next hr => exact absurd (h f hf hr.1) hr.2
    · rfl
  · rfl

theorem State.effectMade_update (s : State) (i : Slot) (c : Bool) (p : Patch) :
    s.EffectMade (s.updateItem i p c) i c (.update p) := by
  refine ⟨?_, fun _ => State.reloadScript_loads, State.reloadScript_keeps⟩
  unfold State.updateItem
  rw [State.reloadScript_eq]
  cases c <;> rfl

theorem State.effectMade_move (s : State) (i : Slot) (c : Bool) (p : Option Slot) :
    s.EffectMade (s.moveItem i p c) i c (.move p) := by
  cases c <;> rfl

/-! ### ITEM.RETIRE (R17) -/

/-- Leaving the READY pointer reaches the tracks alone. -/
theorem State.clearReadyOf_eq (s : State) (t : Track) (i : Slot) : s.clearReadyOf t i = s.setTrack t
    { s.track t with ready := if (s.track t).ready = some i then none else (s.track t).ready } := by
  unfold State.clearReadyOf
  split
  · rfl
  · exact (congrArg (fun p => { s with tracks := p }) (PerTrack.set_get s.tracks t)).symm

theorem State.retireItem_eq (s : State) (i : Slot) : s.retireItem i =
    (((s.abandonAll i).setSlot i { revision := nextRevision (s.slot i).revision, airing := nextAiring (s.slot i).airing }).setOrder
      (s.slot i).track ((s.order (s.slot i).track).filter (fun j => decide (j ≠ i)))).setTrack (s.slot i).track
      { s.track (s.slot i).track with
        ready := if (s.track (s.slot i).track).ready = some i then none else (s.track (s.slot i).track).ready } := by
  have h := State.cueLevel_abandonAll s i
  unfold State.retireItem
  simp only [State.clearReadyOf_eq, (h.items i).freed, (h.items i).track, State.setSlot_order, State.setOrder_track, State.setSlot_track,
    h.order, h.track]
  rfl

theorem State.effectMade_retire (s : State) (i : Slot) (c : Bool) : s.EffectMade (s.retireItem i) i c .retire := by
  have h := State.cueLevel_abandonAll s i
  show _ ∧ _
  rw [State.retireItem_eq]
  refine ⟨h.turned rfl fun j hj => State.setSlot_slot_ne _ _ _ hj, State.setSlot_slot_self _ _ _, State.setOrder_order_self _ _ _,
    fun v hv => ⟨?_, ?_⟩, State.setTrack_track_self _ _ _, fun hw => ?_, fun hq => ⟨_, State.abandoned_abandon hq i _, ?_⟩⟩
  · exact (State.setOrder_order_ne _ _ _ hv).trans (h.order v)
  · exact (State.setTrack_track_ne _ _ _ hv).trans (h.track v)
  · rw [State.abandonAll_noneWaiting hw]
    exact State.quietBut_of_eq rfl fun j hj => State.setSlot_slot_ne _ _ _ hj
  · rw [State.setTrack_slot, State.setOrder_slot, State.setSlot_slot_self]
    rfl

/-! ### ITEM.RESTORE (R18) -/

theorem State.restoreItem_eq (s : State) (i : Slot) : s.restoreItem i = (s.abandonAll i).setSlot i (s.slot i).restored := by
  unfold State.restoreItem
  dsimp only
  rw [((State.cueLevel_abandonAll s i).items i).restored]

theorem State.effectMade_restore (s : State) (i : Slot) (c : Bool) : s.EffectMade (s.restoreItem i) i c .restore := by
  have h := State.cueLevel_abandonAll s i
  show _ ∧ _
  rw [State.restoreItem_eq]
  refine ⟨h.turned rfl fun j hj => State.setSlot_slot_ne _ _ _ hj, h.orders, h.tracks, State.setSlot_slot_self _ _ _, fun hw => ?_,
    fun hq => ⟨_, State.abandoned_abandon hq i _, ?_⟩⟩
  · rw [State.abandonAll_noneWaiting hw]
    exact State.quietBut_of_eq rfl fun j hj => State.setSlot_slot_ne _ _ _ hj
  · rw [State.setSlot_slot_self]
    rfl

/-! ### ITEM.CUES (R19) -/

/-- The state with an item's waiting cues abandoned and its list replaced, before the new cues are armed (R19). -/
def State.relisted (s : State) (i : Slot) (l : List CueSpec) (c : Bool) : State :=
  (s.abandonAll i).setSlot i ((s.slot i).recued l c)

theorem State.recueItem_ready {l : List CueSpec} {c : Bool} (hr : (s.track (s.slot i).track).ready = some i) :
    s.recueItem i l c = (s.relisted i l c).armPhase .ready s.sfc i := by
  have h := State.cueLevel_abandonAll s i
  unfold State.recueItem State.relisted
  simp only [(h.items i).recued, (h.items i).track, State.setSlot_track, h.track, hr, if_true, State.setSlot_sfc, h.aside.sfc]

theorem State.recueItem_other {l : List CueSpec} {c : Bool} (hr : (s.track (s.slot i).track).ready ≠ some i) :
    s.recueItem i l c = s.relisted i l c := by
  have h := State.cueLevel_abandonAll s i
  unfold State.recueItem State.relisted
  simp only [(h.items i).recued, (h.items i).track, State.setSlot_track, h.track, if_neg hr]

/-- What an ITEM.CUES leaves is at cue level from the state with the list replaced. -/
theorem State.cueLevel_recueItem (s : State) (i : Slot) (l : List CueSpec) (c : Bool) :
    (s.relisted i l c).CueLevel (s.recueItem i l c) := by
  by_cases hr : (s.track (s.slot i).track).ready = some i
  · rw [State.recueItem_ready hr]; exact State.cueLevel_armPhase _ _ _ _
  · rw [State.recueItem_other hr]; exact .refl _

theorem State.relisted_slot_self (s : State) (i : Slot) (l : List CueSpec) (c : Bool) :
    (s.relisted i l c).slot i = (s.slot i).recued l c := State.setSlot_slot_self _ _ _

theorem State.effectMade_cues (s : State) (i : Slot) (c : Bool) (l : List CueSpec) :
    s.EffectMade (s.recueItem i l c) i c (.cues l) := by
  have h := State.cueLevel_abandonAll s i
  have hk := State.cueLevel_recueItem s i l c
  have hi := (hk.items i).eq
  have hs := (hk.items i).specs
  rw [State.relisted_slot_self, Item.recued_eq] at hi hs
  refine ⟨(h.turned (u := s.relisted i l c) rfl fun j hj => State.setSlot_slot_ne _ _ _ hj).cueLevel hk, hk.orders.trans h.orders,
    hk.tracks.trans h.tracks, hi, hs.trans (map_spec_fresh l), fun hr => ?_,
    fun hq => ⟨_, s.relisted i l c, State.abandoned_abandon hq i _, ?_, State.recueItem_other, State.recueItem_ready⟩⟩
  · rw [State.recueItem_other hr, State.relisted_slot_self, Item.recued_eq]
    refine ⟨rfl, rfl, fun hw => ?_⟩
    rw [State.relisted, State.abandonAll_noneWaiting hw]
    exact State.quietBut_of_eq rfl fun j hj => State.setSlot_slot_ne _ _ _ hj
  · rw [hi, State.relisted, Item.recued_eq]
    rfl

/-! ### Every edit -/

/-- An edit has the effects of its direct rule (R13 to R19). -/
theorem State.effectMade_carryOut (s : State) (i : Slot) (c : Bool) (b : EditBody) : s.EffectMade (s.carryOut i c b) i c b := by
  cases b with
  | create t p f l => exact s.effectMade_create i c t p f l
  | update p => exact s.effectMade_update i c p
  | move p => exact s.effectMade_move i c p
  | retire => exact s.effectMade_retire i c
  | restore => exact s.effectMade_restore i c
  | cues l => exact s.effectMade_cues i c l

/-- An edit carried out, with the watch it has found (R33, R52). -/
theorem State.editMade_performEdit (s : State) (i : Slot) (c : Bool) (b : EditBody) : s.EditMade (s.performEdit i c b) i c b :=
  s.keepWatch.effectMade_carryOut i c b

end Sys2Proof.Machine
end

section
/-! SUPPORT. What the checks of an edit decide, in the terms of the statements (R12, R15 to R19, R32). -/

namespace Sys2Proof.Machine

variable {s : State} {ref : Reference} {i : Slot} {e : StagedEdit}

theorem State.isOnAir_iff : s.isOnAir i = true ↔ s.airs i := by simp [State.isOnAir, State.airs]

theorem State.isOnAir_false : s.isOnAir i = false ↔ ¬s.airs i := by rw [← Bool.not_eq_true, State.isOnAir_iff]

theorem Patch.refusedOnAir_iff {p : Patch} : p.refusedOnAir = true ↔ p.floated = some true ∨ p.key ≠ none ∨ p.kind ≠ none := by
  simp only [Patch.refusedOnAir, Bool.or_eq_true, decide_eq_true_eq, Option.isSome_iff_ne_none]
  tauto

/-- A key is taken, for a key as the record holds it (R8). -/
theorem State.keyTaken_toNat {k : Word32} {named : Option Slot} : s.keyTaken k.toNat named ↔ s.keyHeldByOther k named = true := by
  rw [State.keyTaken_iff, BitVec.ofNat_toNat, BitVec.setWidth_eq]

theorem State.keyHeldByOther_false {k : Word32} {named : Option Slot} :
    s.keyHeldByOther k named = false ↔ ¬s.keyTaken k.toNat named := by
  rw [State.keyTaken_toNat, Bool.not_eq_true]

theorem State.anchorOk_false {t : Track} {named a : Option Slot} :
    s.anchorOk t named a = false ↔ s.anchorBad t named (anchorCode a) := by
  rw [← Bool.not_eq_true, State.anchorOk_iff, not_not]

/-! ### The named item (R12 steps 2 and 3) -/

theorem State.checkNamed_missing {r : Option Word16} (h : (s.slot i).isLive = false) : s.checkNamed ref i r = some .notFound := by
  simp [State.checkNamed, h]

theorem State.checkNamed_stale {r : Option Word16} (h : (s.slot i).isLive = true) (hx : i ∉ ref.exempt)
    (hr : r ≠ some (ref.revision i)) : s.checkNamed ref i r = some .stale := by
  simp [State.checkNamed, h, hx, hr]

/-- The revision carried is not one that the check refuses. -/
theorem checkNamed_current {r : Option Word16} (hr : i ∈ ref.exempt ∨ r = some (ref.revision i)) :
    (!ref.exempt.contains i && decide (r ≠ some (ref.revision i))) = false := by
  rcases hr with h | h <;> simp [h]

theorem State.checkNamed_reused {r : Option Word16} {t : Track} (h : (s.slot i).isLive = true)
    (hr : i ∈ ref.exempt ∨ r = some (ref.revision i)) (ht : ref.track = some t) (hne : (s.slot i).track ≠ t) :
    s.checkNamed ref i r = some .range := by
  simp only [State.checkNamed, h, checkNamed_current hr]
  simp [ht, hne.symm]

theorem State.checkNamed_none {r : Option Word16} (h : (s.slot i).isLive = true) (hr : i ∈ ref.exempt ∨ r = some (ref.revision i))
    (ht : ∀ t, ref.track = some t → (s.slot i).track = t) : s.checkNamed ref i r = none := by
  simp only [State.checkNamed, h, checkNamed_current hr]
  cases hx : ref.track with
  | none => simp
  | some t => simp [ht t hx]

/-! ### The item's state (R12 step 4) -/

theorem State.checkState_airing {b : EditBody} (h : s.airs i) (hc : ∀ t a f l, b ≠ .create t a f l)
    (hu : ∀ p, b = .update p → p.refusedOnAir = true) : s.checkState i b = some .onAir := by
  have ha := State.isOnAir_iff.mpr h
  cases b with
  | create t a f l => exact absurd rfl (hc t a f l)
  | update p => simp [State.checkState, ha, hu p rfl]
  | _ => simp [State.checkState, ha]

theorem State.checkState_update {p : Patch} (h : s.airs i → p.refusedOnAir = false) : s.checkState i (.update p) = none := by
  by_cases ha : s.airs i
  · simp [State.checkState, h ha]
  · simp [State.checkState, State.isOnAir_false.mpr ha]

theorem State.checkState_off {b : EditBody} (h : ¬s.airs i) (hb : b ≠ .restore) : s.checkState i b = none := by
  have ha := State.isOnAir_false.mpr h
  cases b with
  | restore => exact absurd rfl hb
  | create => rfl
  | _ => simp [State.checkState, ha]

theorem State.checkState_restore_waiting (h : ¬s.airs i) (hs : (s.slot i).state = .planned ∨ (s.slot i).state = .ready) :
    s.checkState i .restore = some .state := by
  rcases hs with hs | hs <;> simp [State.checkState, State.isOnAir_false.mpr h, hs]

theorem State.checkState_restore_past (h : ¬s.airs i) (h1 : (s.slot i).state ≠ .planned) (h2 : (s.slot i).state ≠ .ready) :
    s.checkState i .restore = none := by
  rw [State.checkState, if_neg (by rwa [State.isOnAir_iff])]
  cases hs : (s.slot i).state with
  | planned => exact absurd hs h1
  | ready => exact absurd hs h2
  | _ => rfl

/-! ### The anchor and the key (R12 steps 5 and 6) -/

theorem State.checkPlace_create_range {t : Track} {a : Option Slot} {f : Fields} {l : List CueSpec}
    (h : s.anchorBad t none (anchorCode a)) : s.checkPlace i (.create t a f l) = some .range := by
  simp [State.checkPlace, State.anchorOk_false.mpr h]

theorem State.checkPlace_create_duplicate {t : Track} {a : Option Slot} {f : Fields} {l : List CueSpec}
    (h : ¬s.anchorBad t none (anchorCode a)) (hk : s.keyTaken f.key.toNat none) :
    s.checkPlace i (.create t a f l) = some .duplicate := by
  simp [State.checkPlace, State.anchorOk_iff.mpr h, State.keyTaken_toNat.mp hk]

theorem State.checkPlace_create_none {t : Track} {a : Option Slot} {f : Fields} {l : List CueSpec}
    (h : ¬s.anchorBad t none (anchorCode a)) (hk : ¬s.keyTaken f.key.toNat none) : s.checkPlace i (.create t a f l) = none := by
  simp [State.checkPlace, State.anchorOk_iff.mpr h, State.keyHeldByOther_false.mpr hk]

theorem State.checkPlace_update_duplicate {p : Patch} {k : Word32} (hp : p.key = some k) (hk : s.keyTaken k.toNat (some i)) :
    s.checkPlace i (.update p) = some .duplicate := by
  simp [State.checkPlace, hp, State.keyTaken_toNat.mp hk]

theorem State.checkPlace_update_none {p : Patch} (h : ∀ k, p.key = some k → ¬s.keyTaken k.toNat (some i)) :
    s.checkPlace i (.update p) = none := by
  cases hp : p.key with
  | none => simp [State.checkPlace, hp]
  | some k => simp [State.checkPlace, hp, State.keyHeldByOther_false.mpr (h k hp)]

/-! ### The verdict on an edit (R12, R32) -/

/-- The checks of a CREATE are of its place and its key; it names no item. -/
theorem State.checkEdit_create {r : Option Word16} {t : Track} {a : Option Slot} {f : Fields} {l : List CueSpec} :
    s.checkEdit ref i r (.create t a f l) = s.checkPlace i (.create t a f l) := rfl

/-- The checks of an edit that names an item are of the item, its state, and the place or the key. -/
theorem State.checkEdit_names (h : e.reserves = none) : s.checkEdit ref e.slot e.revision e.body =
    (s.checkNamed ref e.slot e.revision).or ((s.checkState e.slot e.body).or (s.checkPlace e.slot e.body)) := by
  obtain ⟨i, r, b⟩ := e
  cases b with
  | create => cases h
  | _ => rfl

/-- An edit that names its item passes on to the checks of the item's state. -/
theorem State.Names.checkEdit (h : s.Names ref e) : s.checkEdit ref e.slot e.revision e.body =
    (s.checkState e.slot e.body).or (s.checkPlace e.slot e.body) := by
  obtain ⟨hn, hl, hr, ht⟩ := h
  rw [State.checkEdit_names hn, State.checkNamed_none hl hr ht]
  rfl

/-- The checks of an edit judge it in the order of R12 and by its own rule (R13 to R19, R32). -/
theorem State.judges_checkEdit (s : State) (ref : Reference) (e : StagedEdit) :
    s.Judges ref e (s.checkEdit ref e.slot e.revision e.body) where
  created := by
    intro t a f l hb
    rw [hb, State.checkEdit_create]
    exact ⟨State.checkPlace_create_range, fun ha => ⟨State.checkPlace_create_duplicate ha, State.checkPlace_create_none ha⟩⟩
  missing := by
    intro hn hl
    rw [State.checkEdit_names hn, State.checkNamed_missing hl]
    rfl
  stale := by
    intro hn hl hx hr
    rw [State.checkEdit_names hn, State.checkNamed_stale hl hx hr]
    rfl
  reused := by
    intro hn hl hr t ht hne
    rw [State.checkEdit_names hn, State.checkNamed_reused hl hr ht hne]
    rfl
  airing := by
    intro hn ha hu
    have hc : ∀ t a f l, e.body ≠ .create t a f l := fun t a f l hb => by
      have := hn.1
      simp [StagedEdit.reserves, hb] at this
    rw [hn.checkEdit, State.checkState_airing ha hc fun p hp => Patch.refusedOnAir_iff.mpr (hu p hp)]
    rfl
  updated := by
    intro hn p hp hu
    rw [hn.checkEdit, hp, State.checkState_update fun ha => ?_]
    · exact ⟨fun k hk => State.checkPlace_update_duplicate hk, State.checkPlace_update_none⟩
    · obtain ⟨h1, h2, h3⟩ := hu ha
      rw [← Bool.not_eq_true, Patch.refusedOnAir_iff]
      simp [h1, h2, h3]
  moved := by
    intro hn ha a hb
    rw [hn.checkEdit, hb, State.checkState_off (b := .move a) ha nofun, Option.none_or, State.checkPlace]
    refine ⟨fun h => ?_, fun h => ?_⟩
    · simp [State.anchorOk_false.mpr h]
    · simp [State.anchorOk_iff.mpr h]
  restored := by
    intro hn ha hb
    rw [hn.checkEdit, hb]
    refine ⟨fun h => ?_, fun h1 h2 => ?_⟩
    · rw [State.checkState_restore_waiting ha h]; rfl
    · rw [State.checkState_restore_past ha h1 h2]; rfl
  passed := by
    intro hn ha hb
    rcases hb with hb | ⟨l, hb⟩
    · rw [hn.checkEdit, hb, State.checkState_off (b := .retire) ha nofun]; rfl
    · rw [hn.checkEdit, hb, State.checkState_off (b := .cues l) ha nofun]; rfl

end Sys2Proof.Machine
end

section
/-! SUPPORT. The edits of a group carried out or stopped at the first that fails, and what an apply leaves (R32 to R36). -/

namespace Sys2Proof.Machine

variable {s u : State} {g : GroupNo}

/-! ### What edits and applies keep -/

/-- What the apply of a group keeps besides what every running operation keeps: the marks of takes, the over/under status and the
completions of reads. -/
structure State.ApplyLevel (s u : State) : Prop where
  run : s.RunLevel u
  cut : u.cut = s.cut
  status : u.status = s.status
  readsDone : u.readsDone = s.readsDone

theorem State.ApplyLevel.refl (s : State) : s.ApplyLevel s := ⟨.refl s, rfl, rfl, rfl⟩

theorem State.ApplyLevel.trans {s t u : State} (a : s.ApplyLevel t) (b : t.ApplyLevel u) : s.ApplyLevel u :=
  ⟨a.run.trans b.run, b.cut.trans a.cut, b.status.trans a.status, b.readsDone.trans a.readsDone⟩

theorem State.ApplyLevel.foldl {α : Type} {f : State → α → State} (h : ∀ (s : State) x, s.ApplyLevel (f s x)) (l : List α)
    (s : State) : s.ApplyLevel (l.foldl f s) := by
  induction l generalizing s with
  | nil => exact .refl s
  | cons x l ih => exact (h s x).trans (ih _)

/-- No apply reaches what no edit reaches, but for what the sequencers look at. -/
theorem State.ApplyLevel.aside (h : s.ApplyLevel u) : (s.setLooks u.looks).Aside u := by
  have k := h.run.aside
  rw [h.cut] at k
  exact k

/-- What edits carried out keep: that, and the groups and the armed queues. -/
structure State.EditLevel (s u : State) : Prop where
  toApplyLevel : s.ApplyLevel u
  groups : u.groups = s.groups
  armed : u.armed = s.armed

theorem State.EditLevel.refl (s : State) : s.EditLevel s := ⟨.refl s, rfl, rfl⟩

theorem State.EditLevel.trans {s t u : State} (a : s.EditLevel t) (b : t.EditLevel u) : s.EditLevel u :=
  ⟨a.toApplyLevel.trans b.toApplyLevel, b.groups.trans a.groups, b.armed.trans a.armed⟩

theorem State.EditLevel.group (h : s.EditLevel u) (g : GroupNo) : u.group g = s.group g := by
  rw [State.group, h.groups]; rfl

theorem State.EditLevel.armedQueue (h : s.EditLevel u) (t : Track) : u.armedQueue t = s.armedQueue t := by
  rw [State.armedQueue, h.armed]; rfl

/-- The effect of an edit keeps what edits keep. -/
theorem State.EffectMade.editLevel {i : Slot} {c : Bool} {b : EditBody} (hr : s.RunLevel u) (h : s.EffectMade u i c b) :
    s.EditLevel u := by
  have turned (h : s.CuesTurned u i) : s.EditLevel u :=
    ⟨⟨hr, h.aside.cut, h.status, h.readsDone⟩, h.groups, h.armed⟩
  cases b with
  | create t a f l => exact ⟨⟨hr, by rw [h]; rfl, by rw [h]; rfl, by rw [h]; rfl⟩, by rw [h]; rfl, by rw [h]; rfl⟩
  | update p =>
    obtain ⟨h, -⟩ := h
    exact ⟨⟨hr, by rw [h]; rfl, by rw [h]; rfl, by rw [h]; rfl⟩, by rw [h]; rfl, by rw [h]; rfl⟩
  | move a => exact ⟨⟨hr, by rw [h]; rfl, by rw [h]; rfl, by rw [h]; rfl⟩, by rw [h]; rfl, by rw [h]; rfl⟩
  | retire => exact turned h.1
  | restore => exact turned h.1
  | cues l => exact turned h.1

theorem State.editLevel_performEdit (s : State) (i : Slot) (c : Bool) (b : EditBody) : s.EditLevel (s.performEdit i c b) :=
  .trans ⟨⟨s.run_keepWatch, rfl, rfl, rfl⟩, rfl, rfl⟩
    ((s.keepWatch.effectMade_carryOut i c b).editLevel (State.run_carryOut _ _ _ _))

/-! ### A list of edits (R32, R33) -/

theorem State.runEdits_cons_ok {ref : Reference} {e : StagedEdit} (h : s.checkEdit ref e.slot e.revision e.body = none) (k : Nat)
    (l : List StagedEdit) : State.runEdits ref k (e :: l) s =
      State.runEdits ref (k + 1) l (s.performEdit e.slot (ref.exempt.contains e.slot) e.body) := by
  rw [State.runEdits, h]

theorem State.runEdits_cons_error {ref : Reference} {e : StagedEdit} {cause : Result}
    (h : s.checkEdit ref e.slot e.revision e.body = some cause) (k : Nat) (l : List StagedEdit) :
    State.runEdits ref k (e :: l) s = .error (cause, k) := by
  rw [State.runEdits, h]

/-- An edit that passes its checks, and those behind it, carried out. -/
theorem State.carried_cons {ref : Reference} {e : StagedEdit} {l : List StagedEdit}
    (h : s.checkEdit ref e.slot e.revision e.body = none)
    (hl : State.Carried ref (s.performEdit e.slot (ref.exempt.contains e.slot) e.body) l u) : State.Carried ref s (e :: l) u := by
  have hj := State.judges_checkEdit s ref e
  rw [h] at hj
  refine .cons hj ?_ hl
  have hc : decide (e.slot ∈ ref.exempt) = ref.exempt.contains e.slot := by rw [List.contains_eq_mem]
  rw [hc]
  exact s.editMade_performEdit _ _ _

/-- A list whose every edit passes is carried out whole. -/
theorem State.carried_runEdits {ref : Reference} {k : Nat} {l : List StagedEdit} (h : State.runEdits ref k l s = .ok u) :
    State.Carried ref s l u := by
  induction l generalizing s k with
  | nil => cases h; exact .nil _
  | cons e l ih =>
    cases hc : s.checkEdit ref e.slot e.revision e.body with
    | some cause => rw [State.runEdits_cons_error hc] at h; cases h
    | none =>
      rw [State.runEdits_cons_ok hc] at h
      exact State.carried_cons hc (ih h)

/-- A list that stops does so at the first edit that fails, the edits before it carried out. -/
theorem State.stopped_runEdits {ref : Reference} {k n : Nat} {l : List StagedEdit} {cause : Result}
    (h : State.runEdits ref k l s = .error (cause, n)) :
    ∃ before e after v, l = before ++ e :: after ∧ n = k + before.length ∧ State.Carried ref s before v ∧
      v.Judges ref e (some cause) := by
  induction l generalizing s k with
  | nil => cases h
  | cons e l ih =>
    cases hc : s.checkEdit ref e.slot e.revision e.body with
    | some r =>
      rw [State.runEdits_cons_error hc] at h
      cases h
      have hj := State.judges_checkEdit s ref e
      rw [hc] at hj
      exact ⟨[], e, l, s, rfl, rfl, .nil s, hj⟩
    | none =>
      rw [State.runEdits_cons_ok hc] at h
      obtain ⟨before, d, after, v, hl, hn, hv, hj⟩ := ih h
      refine ⟨e :: before, d, after, v, by rw [hl]; rfl, ?_, State.carried_cons hc hv, hj⟩
      rw [hn, List.length_cons]
      omega

theorem State.editLevel_runEdits {ref : Reference} {k : Nat} {l : List StagedEdit} (h : State.runEdits ref k l s = .ok u) :
    s.EditLevel u := by
  induction l generalizing s k with
  | nil => cases h; exact .refl _
  | cons e l ih =>
    cases hc : s.checkEdit ref e.slot e.revision e.body with
    | some cause => rw [State.runEdits_cons_error hc] at h; cases h
    | none =>
      rw [State.runEdits_cons_ok hc] at h
      exact (State.editLevel_performEdit _ _ _ _).trans (ih h)

/-! ### The apply of a group (R32, R33, R35) -/

/-- The last result an apply gives a group of so many edits: APPLIED, or REJECTED at one of them. -/
def LastResult.Settles (x : LastResult) (edits : Nat) : Prop := x = .applied ∨ ∃ cause k, x = .rejected cause k ∧ k < edits

theorem LastResult.Settles.mono {x : LastResult} {m n : Nat} (h : x.Settles m) (hmn : m ≤ n) : x.Settles n := by
  rcases h with h | ⟨cause, k, h, hk⟩
  · exact .inl h
  · exact .inr ⟨cause, k, h, by omega⟩

/-- A group whose edits all pass. -/
theorem State.applyGroup_ok {pre post : Bank 512 Item}
    (h : State.runEdits (s.applyReference (s.group g) pre post) 0 (s.group g).edits s = .ok u) :
    State.applyGroup pre post s g = (u.idleGroup g .applied).raise .groupDone := by
  rw [State.applyGroup, h]

/-- A group stopped at an edit. -/
theorem State.applyGroup_error {pre post : Bank 512 Item} {cause : Result} {k : Nat}
    (h : State.runEdits (s.applyReference (s.group g) pre post) 0 (s.group g).edits s = .error (cause, k)) :
    State.applyGroup pre post s g =
      ((s.freeReserved (s.group g).reserved).idleGroup g (.rejected cause k)).raise .groupDone := by
  rw [State.applyGroup, h]

/-- What the edits of a group are compared with (R29, R32). -/
theorem State.applyReference_for (s : State) (x : Group) (pre post : Bank 512 Item) :
    (s.applyReference x pre post).For s x pre post :=
  ⟨fun _ h => if_pos h, fun _ h => if_neg h, rfl, rfl⟩

theorem State.groupEnded_idleGroup (s : State) (g : GroupNo) (x : LastResult) :
    s.GroupEnded ((s.idleGroup g x).raise .groupDone) g x where
  group := s.idleGroup_group_self g x
  others := fun _ hne => s.idleGroup_group_ne x hne
  queue := s.idleGroup_queue_self g x
  otherQueue := fun _ hne => s.idleGroup_queue_ne g x hne
  rest := rfl

/-- Reserved slots made free, and nothing else changed, reach no group and no queue. -/
theorem State.applyLevel_freeReserved (s : State) (l : List Slot) : s.ApplyLevel (s.freeReserved l) := by
  refine ⟨s.run_freeReserved l, ?_, ?_, ?_⟩ <;> rw [State.freeReserved_eq]

theorem State.applyLevel_ended (s : State) (g : GroupNo) (x : LastResult) :
    s.ApplyLevel ((s.idleGroup g x).raise .groupDone) :=
  ⟨(s.run_idleGroup g x).trans (State.sequencer_raise _ _).run, rfl, rfl, rfl⟩

/-- An apply carries the group out whole, or rejects it at the first edit that fails (R32, R33, R35). -/
theorem State.groupApplied_applyGroup (pre post : Bank 512 Item) (s : State) (g : GroupNo) :
    State.GroupApplied pre post s (State.applyGroup pre post s g) g := by
  have href := s.applyReference_for (s.group g) pre post
  cases h : State.runEdits (s.applyReference (s.group g) pre post) 0 (s.group g).edits s with
  | ok v =>
    rw [State.applyGroup_ok h]
    exact .applied _ v href (State.carried_runEdits h) (v.groupEnded_idleGroup g _)
  | error r =>
    obtain ⟨cause, k⟩ := r
    obtain ⟨before, e, after, v, hl, hk, hv, hj⟩ := State.stopped_runEdits h
    rw [Nat.zero_add] at hk
    subst hk
    rw [State.applyGroup_error h]
    refine .rejected _ before after e v (s.freeReserved (s.group g).reserved) cause href hl hv hj
      (fun i hi => State.freeReserved_slot_of_mem hi s) (fun i hi => State.freeReserved_slot_of_notMem hi s)
      (State.freeReserved_eq _ _) ?_
    exact State.groupEnded_idleGroup _ _ _

/-- What an apply does to the groups and the queues: it makes the group IDLE from a state with the groups and queues as they were. -/
theorem State.applyGroup_ends (pre post : Bank 512 Item) (s : State) (g : GroupNo) :
    ∃ v last, last.Settles (s.group g).edits.length ∧ s.ApplyLevel v ∧ (∀ h, v.group h = s.group h) ∧
      (∀ t, v.armedQueue t = s.armedQueue t) ∧ State.applyGroup pre post s g = (v.idleGroup g last).raise .groupDone := by
  cases h : State.runEdits (s.applyReference (s.group g) pre post) 0 (s.group g).edits s with
  | ok v =>
    have hv := State.editLevel_runEdits h
    exact ⟨v, .applied, .inl rfl, hv.toApplyLevel, hv.group, hv.armedQueue, State.applyGroup_ok h⟩
  | error r =>
    obtain ⟨cause, k⟩ := r
    obtain ⟨before, e, after, v, hl, hk, -, -⟩ := State.stopped_runEdits h
    refine ⟨_, _, .inr ⟨cause, k, rfl, ?_⟩, s.applyLevel_freeReserved _, s.freeReserved_group _, s.freeReserved_armedQueue _,
      State.applyGroup_error h⟩
    rw [hl, hk, List.length_append, List.length_cons]
    omega

theorem State.applyLevel_applyGroup (pre post : Bank 512 Item) (s : State) (g : GroupNo) :
    s.ApplyLevel (State.applyGroup pre post s g) := by
  obtain ⟨v, last, -, hv, -, -, e⟩ := State.applyGroup_ends pre post s g
  rw [e]
  exact hv.trans (v.applyLevel_ended g last)

theorem State.applyGroup_group_self (pre post : Bank 512 Item) (s : State) (g : GroupNo) :
    ∃ last, (State.applyGroup pre post s g).group g = (s.group g).toIdle last ∧ last.Settles (s.group g).edits.length := by
  obtain ⟨v, last, hl, -, hg, -, e⟩ := State.applyGroup_ends pre post s g
  refine ⟨last, ?_, hl⟩
  rw [e, ← hg]
  exact v.idleGroup_group_self g last

theorem State.applyGroup_group_ne (pre post : Bank 512 Item) (s : State) {g h : GroupNo} (hne : h ≠ g) :
    (State.applyGroup pre post s g).group h = s.group h := by
  obtain ⟨v, last, -, -, hg, -, e⟩ := State.applyGroup_ends pre post s g
  rw [e, ← hg]
  exact v.idleGroup_group_ne last hne

theorem State.applyGroup_queue_self (pre post : Bank 512 Item) (s : State) (g : GroupNo) :
    (State.applyGroup pre post s g).armedQueue (s.group g).track =
      (s.armedQueue (s.group g).track).filter (fun h => decide (h ≠ g)) := by
  obtain ⟨v, last, -, -, hg, hq, e⟩ := State.applyGroup_ends pre post s g
  rw [e, ← hg, ← hq]
  exact v.idleGroup_queue_self g last

theorem State.applyGroup_queue_ne (pre post : Bank 512 Item) (s : State) (g : GroupNo) {t : Track} (hne : t ≠ (s.group g).track) :
    (State.applyGroup pre post s g).armedQueue t = s.armedQueue t := by
  obtain ⟨v, last, -, -, hg, hq, e⟩ := State.applyGroup_ends pre post s g
  rw [e, ← hq]
  exact v.idleGroup_queue_ne g last (by rwa [hg])

theorem State.applyGroup_groupDone (pre post : Bank 512 Item) (s : State) (g : GroupNo) :
    (State.applyGroup pre post s g).flags.get .groupDone = true := by
  obtain ⟨v, last, -, -, -, -, e⟩ := State.applyGroup_ends pre post s g
  rw [e, State.raise_flags, EventSet.get_put_self]

/-! ### The groups of an armed queue (R36) -/

variable {pre post : Bank 512 Item}

theorem State.queueApplied_foldl (pre post : Bank 512 Item) (l : List GroupNo) (s : State) :
    State.QueueApplied pre post s l (l.foldl (State.applyGroup pre post) s) := by
  induction l generalizing s with
  | nil => exact .nil s
  | cons g l ih => exact .cons (State.groupApplied_applyGroup pre post s g) (ih _)

theorem State.foldl_applyGroup_group_of_notMem {l : List GroupNo} (h : g ∉ l) (s : State) :
    (l.foldl (State.applyGroup pre post) s).group g = s.group g := by
  induction l generalizing s with
  | nil => rfl
  | cons x l ih =>
    obtain ⟨hx, hl⟩ := not_or.mp (mt List.mem_cons.mpr h)
    rw [List.foldl_cons, ih hl, State.applyGroup_group_ne _ _ _ hx]

/-- A group applied, once or more, ends IDLE and empty with a last result. -/
theorem State.foldl_applyGroup_group_of_mem {l : List GroupNo} (h : g ∈ l) (s : State) :
    ∃ last, (l.foldl (State.applyGroup pre post) s).group g = (s.group g).toIdle last ∧ last.Settles (s.group g).edits.length := by
  induction l generalizing s with
  | nil => cases h
  | cons x l ih =>
    rw [List.foldl_cons]
    by_cases hl : g ∈ l
    · obtain ⟨last, he, hs⟩ := ih hl (State.applyGroup pre post s x)
      by_cases hx : g = x
      · subst hx
        obtain ⟨first, hf, -⟩ := State.applyGroup_group_self pre post s g
        rw [hf] at he hs
        exact ⟨last, he, hs.mono (Nat.zero_le _)⟩
      · rw [State.applyGroup_group_ne _ _ _ hx] at he hs
        exact ⟨last, he, hs⟩
    · obtain rfl : g = x := (List.mem_cons.mp h).resolve_right hl
      rw [State.foldl_applyGroup_group_of_notMem hl]
      exact State.applyGroup_group_self pre post s g

/-- An apply leaves every group its track. -/
theorem State.applyGroup_track (s : State) (g h : GroupNo) :
    ((State.applyGroup pre post s g).group h).track = (s.group h).track := by
  by_cases e : h = g
  · subst e
    obtain ⟨last, hl, -⟩ := State.applyGroup_group_self pre post s h
    rw [hl]; rfl
  · rw [State.applyGroup_group_ne _ _ _ e]

/-- Groups of one track leave that track's queue alone, and no other (R34). -/
theorem State.foldl_applyGroup_queue {t : Track} {l : List GroupNo} (h : ∀ g ∈ l, (s.group g).track = t) :
    (l.foldl (State.applyGroup pre post) s).armedQueue t = (s.armedQueue t).filter (fun g => decide (g ∉ l)) ∧
      ∀ v, v ≠ t → (l.foldl (State.applyGroup pre post) s).armedQueue v = s.armedQueue v := by
  induction l generalizing s with
  | nil => exact ⟨(List.filter_eq_self.mpr (by simp)).symm, fun _ _ => rfl⟩
  | cons x l ih =>
    have hx := h x (by simp)
    obtain ⟨h1, h2⟩ := ih (s := State.applyGroup pre post s x) fun g hg => by
      rw [State.applyGroup_track]
      exact h g (List.mem_cons_of_mem x hg)
    refine ⟨?_, fun v hv => ?_⟩
    · rw [List.foldl_cons, h1, ← hx, State.applyGroup_queue_self, List.filter_filter]
      refine List.filter_congr fun g _ => ?_
      simp [Bool.and_comm]
    · rw [List.foldl_cons, h2 v hv, State.applyGroup_queue_ne _ _ _ _ (by rwa [hx])]

theorem State.applyLevel_foldl (pre post : Bank 512 Item) (l : List GroupNo) (s : State) :
    s.ApplyLevel (l.foldl (State.applyGroup pre post) s) := .foldl (State.applyLevel_applyGroup pre post) l s

theorem State.foldl_applyGroup_groupDone {l : List GroupNo} (h : l ≠ []) (s : State) :
    (l.foldl (State.applyGroup pre post) s).flags.get .groupDone = true := by
  cases l with
  | nil => exact absurd rfl h
  | cons g l => exact (State.applyLevel_foldl pre post l _).run.flags _ (State.applyGroup_groupDone pre post s g)

end Sys2Proof.Machine

namespace Sys2Proof

open Sys2Proof.Machine

/-- Settles O24, by induction on the queue: each apply makes its group IDLE and takes it out of the queue. -/
theorem armedGroupsAreAppliedAtATake : Obligations.ArmedGroupsAreAppliedAtATake := by
  rintro s u t pre rfl
  have hk : s.ApplyLevel (s.applyArmed t pre) := State.applyLevel_foldl _ _ _ s
  refine ⟨State.queueApplied_foldl _ _ _ s, fun g hg => State.foldl_applyGroup_group_of_mem hg s,
    fun g hg => State.foldl_applyGroup_group_of_notMem hg s, fun ht => ?_, fun h => State.foldl_applyGroup_groupDone h s, fun h => ?_,
    hk.aside, hk.run.looks, hk.run.flags⟩
  · obtain ⟨h1, h2⟩ := State.foldl_applyGroup_queue (pre := pre) (post := s.slots) ht
    exact ⟨h1.trans (by simp), h2⟩
  · rw [State.applyArmed, h]; rfl

end Sys2Proof
end

section
/-! SUPPORT. GROUP.LAUNCH: its refusals, the arming of a group, and an apply made at once with the READY choice that follows it
(R31, R33). -/

namespace Sys2Proof.Machine

variable {s u v : State} {g : GroupNo} {m : LaunchMode}

/-! ### The rule of GROUP.LAUNCH -/

theorem launchModeOf_of_le {n : Nat} (h : 2 ≤ n) : launchModeOf n = none := by
  match n, h with
  | n + 2, _ => rfl

theorem launchModeOf_of_lt {n : Nat} (h : n < 2) : ∃ m, launchModeOf n = some m := by
  match n, h with
  | 0, _ => exact ⟨.now, rfl⟩
  | 1, _ => exact ⟨.boundary, rfl⟩

theorem State.serveGroupLaunch_range {n k : Nat} (h : 4 ≤ n ∨ 2 ≤ k) : s.serveGroupLaunch n k = s.refuse .range := by
  unfold State.serveGroupLaunch
  rcases h with h | h
  · rw [idOf_of_le h, State.ranged_none]
  · rw [launchModeOf_of_le h]
    cases idOf 4 n <;> rfl

theorem State.serveGroupLaunch_state {k : Nat} (h : (s.group g).state ≠ .opened) (hk : k < 2) :
    s.serveGroupLaunch g.val k = s.refuse .state := by
  obtain ⟨m, hm⟩ := launchModeOf_of_lt hk
  simp [State.serveGroupLaunch, hm, h]

theorem State.serveGroupLaunch_opened {k : Nat} (h : (s.group g).state = .opened) (hm : launchModeOf k = some m) :
    s.serveGroupLaunch g.val k = (s.launchGroup g m).accept false
      (.launched ((s.launchGroup g m).group g).state ((s.launchGroup g m).group g).last ((s.launchGroup g m).placeOf g)) := by
  simp [State.serveGroupLaunch, hm, h]

/-! ### A group armed (R31, R34) -/

theorem State.setGroup_setGroup (s : State) (g : GroupNo) (x y : Group) : (s.setGroup g x).setGroup g y = s.setGroup g y :=
  congrArg (fun b => { s with groups := b }) (Bank.set_set s.groups g x y)

theorem State.launchGroup_arms (h : (s.track (s.group g).track).onAir ≠ none) : s.launchGroup g .boundary =
    (s.setGroup g { s.group g with state := .armed, launch := some .boundary }).setArmed (s.group g).track
      (s.armedQueue (s.group g).track ++ [g]) := by
  simp [State.launchGroup, h, State.armGroup, State.setGroup_setGroup]

theorem State.launchGroup_armed_group (h : (s.track (s.group g).track).onAir ≠ none) :
    (s.launchGroup g .boundary).group g = { s.group g with state := .armed, launch := some .boundary } := by
  rw [State.launchGroup_arms h, State.setArmed_group, State.setGroup_group_self]

/-- A group that joins the tail of a queue stands behind all that were in it. -/
theorem State.launchGroup_armed_place (h : (s.track (s.group g).track).onAir ≠ none) (hq : g ∉ s.armedQueue (s.group g).track) :
    (s.launchGroup g .boundary).placeOf g = some (s.armedQueue (s.group g).track).length := by
  refine State.placeOf_armed (after := []) ?_ ?_ hq
  · rw [State.launchGroup_armed_group h]
  · rw [State.launchGroup_armed_group h, State.launchGroup_arms h, State.setArmed_armedQueue_self]

theorem exec_groupLaunch_arms (hp : s.portFree) (ho : (s.group g).state = .opened)
    (h : (s.track (s.group g).track).onAir ≠ none) (hq : g ∉ s.armedQueue (s.group g).track) :
    exec (.groupLaunch g.val 1) s = .next (((s.select 3).launchGroup g .boundary).accept false
      (.launched .armed (s.group g).last (some (s.armedQueue (s.group g).track).length))).buffered := by
  rw [exec_groupLaunch hp, State.serveGroupLaunch_opened (s := s.select 3) ho (m := .boundary) rfl,
    State.launchGroup_armed_place (s := s.select 3) h hq, State.launchGroup_armed_group (s := s.select 3) h]
  rfl

theorem exec_groupLaunch_armed (hp : s.portFree) (ho : (s.group g).state = .opened)
    (h : (s.track (s.group g).track).onAir ≠ none) (hq : g ∉ s.armedQueue (s.group g).track) :
    ∃ u, exec (.groupLaunch g.val 1) s = .next u ∧
      u = { s.answeredWith 3 .ok (.launched .armed (s.group g).last (some (s.armedQueue (s.group g).track).length)) with
            groups := u.groups, armed := u.armed } ∧
      u.group g = { s.group g with state := .armed, launch := some .boundary } ∧ (∀ h, h ≠ g → u.group h = s.group h) ∧
      u.armedQueue (s.group g).track = s.armedQueue (s.group g).track ++ [g] ∧
      ∀ v, v ≠ (s.group g).track → u.armedQueue v = s.armedQueue v := by
  refine ⟨_, exec_groupLaunch_arms hp ho h hq, ?_⟩
  rw [State.launchGroup_arms (s := s.select 3) h]
  exact ⟨rfl, State.setGroup_group_self _ _ _, fun k hk => State.setGroup_group_ne _ _ _ hk, State.setArmed_armedQueue_self _ _ _,
    fun k hk => State.setArmed_armedQueue_ne _ _ _ hk⟩

/-! ### A group applied at once (R31, R33) -/

/-- The state in which a launch makes its apply: the transaction's bytes shifted out, and the mode in the group's record. -/
def State.launching (s : State) (g : GroupNo) (m : LaunchMode) : State :=
  (s.select 3).setGroup g { s.group g with launch := some m }

/-- The apply that a launch makes at once. -/
def State.appliedNow (s : State) (g : GroupNo) (m : LaunchMode) : State :=
  State.applyGroup s.slots s.slots (s.launching g m) g

theorem State.launching_group_self (s : State) (g : GroupNo) (m : LaunchMode) :
    (s.launching g m).group g = { s.group g with launch := some m } := State.setGroup_group_self _ _ _

theorem State.launching_group_ne (s : State) {g h : GroupNo} (m : LaunchMode) (hne : h ≠ g) :
    (s.launching g m).group h = s.group h := State.setGroup_group_ne _ _ _ hne

/-- What a launch compares the edits of its group with. -/
def State.launchReference (s : State) (g : GroupNo) (m : LaunchMode) : Reference :=
  (s.launching g m).applyReference ((s.launching g m).group g) s.slots s.slots

/-- The edits of a group run as its launch runs them: carried out, or stopped at the first that fails. -/
def State.launchRun (s : State) (g : GroupNo) (m : LaunchMode) : Except (Result × Nat) State :=
  State.runEdits (s.launchReference g m) 0 (s.group g).edits (s.launching g m)

theorem State.runEdits_launching (s : State) (g : GroupNo) (m : LaunchMode) :
    State.runEdits (s.launchReference g m) 0 ((s.launching g m).group g).edits (s.launching g m) = s.launchRun g m := by
  rw [s.launching_group_self g m]
  rfl

/-- Some edit of a group hands the changed event as a launch applies it. -/
def State.launchHands (s : State) (g : GroupNo) (m : LaunchMode) : Bool :=
  State.editsHand (s.launchReference g m) (s.group g).edits (s.launching g m)

/-- The launch of a group with its apply and the READY choice that may follow, but for the answer. -/
def State.launchedNow (s : State) (g : GroupNo) (m : LaunchMode) : State := (s.launching g m).applyNow g

theorem State.launchedNow_eq (s : State) (g : GroupNo) (m : LaunchMode) : s.launchedNow g m =
    if ((s.appliedNow g m).group g).last = .applied ∧ s.launchHands g m = true then (s.appliedNow g m).readyChoice (s.group g).track
    else s.appliedNow g m := by
  unfold State.launchedNow State.applyNow State.launchHands State.launchReference
  rw [s.launching_group_self g m]
  rfl

theorem State.launchedNow_choice (hl : ((s.appliedNow g m).group g).last = .applied) (hh : s.launchHands g m = true) :
    s.launchedNow g m = (s.appliedNow g m).readyChoice (s.group g).track := by
  rw [State.launchedNow_eq, if_pos ⟨hl, hh⟩]

theorem State.launchedNow_rejected (hl : ((s.appliedNow g m).group g).last ≠ .applied) : s.launchedNow g m = s.appliedNow g m := by
  rw [State.launchedNow_eq, if_neg fun h => hl h.1]

theorem State.launchedNow_still (hh : s.launchHands g m = false) : s.launchedNow g m = s.appliedNow g m := by
  rw [State.launchedNow_eq, if_neg fun h => Bool.false_ne_true (hh.symm.trans h.2)]

/-- A launch leaves what its apply leaves, or that and the READY choice after an APPLIED one. -/
theorem State.launchedNow_cases (s : State) (g : GroupNo) (m : LaunchMode) : s.launchedNow g m = s.appliedNow g m ∨
    ((s.appliedNow g m).group g).last = .applied ∧ s.launchedNow g m = (s.appliedNow g m).readyChoice (s.group g).track := by
  rw [State.launchedNow_eq]
  split
  · next h => exact .inr ⟨h.1, rfl⟩
  · exact .inl rfl

theorem State.launchedNow_choiceLevel (s : State) (g : GroupNo) (m : LaunchMode) :
    State.ChoiceLevel (s.group g).track (s.appliedNow g m) (s.launchedNow g m) := by
  rcases s.launchedNow_cases g m with h | ⟨-, h⟩
  · rw [h]; exact .refl _ _
  · rw [h]; exact State.choice_readyChoice _ _

theorem State.launchedNow_group (s : State) (g h : GroupNo) (m : LaunchMode) :
    (s.launchedNow g m).group h = (s.appliedNow g m).group h := by
  rw [State.group, (s.launchedNow_choiceLevel g m).groups]; rfl

/-- The group of a launch applied at once ends IDLE and empty with its mode and a last result. -/
theorem State.launchedNow_group_self (s : State) (g : GroupNo) (m : LaunchMode) :
    ∃ last, (s.launchedNow g m).group g = { s.group g with
      state := .idle, launch := some m, edits := [], reserved := [], reservedEntries := 0, last := last } ∧
      last.Settles (s.group g).edits.length := by
  obtain ⟨last, hl, hs⟩ := State.applyGroup_group_self s.slots s.slots (s.launching g m) g
  rw [State.launching_group_self] at hl hs
  exact ⟨last, (s.launchedNow_group g g m).trans hl, hs⟩

theorem State.launchedNow_group_ne (s : State) {g h : GroupNo} (m : LaunchMode) (hne : h ≠ g) :
    (s.launchedNow g m).group h = s.group h := by
  rw [State.launchedNow_group, State.appliedNow, State.applyGroup_group_ne _ _ _ hne, State.launching_group_ne _ _ hne]

theorem State.launchedNow_armedQueue (s : State) (g : GroupNo) (m : LaunchMode) (t : Track) :
    (s.launchedNow g m).armedQueue t = (s.appliedNow g m).armedQueue t := by
  rw [State.armedQueue, (s.launchedNow_choiceLevel g m).armed]; rfl

theorem State.launchedNow_queue_self (s : State) (g : GroupNo) (m : LaunchMode) :
    (s.launchedNow g m).armedQueue (s.group g).track = (s.armedQueue (s.group g).track).filter (fun h => decide (h ≠ g)) := by
  have h := State.applyGroup_queue_self s.slots s.slots (s.launching g m) g
  rw [State.launching_group_self] at h
  exact (s.launchedNow_armedQueue g m _).trans h

theorem State.launchedNow_queue_ne (s : State) (g : GroupNo) (m : LaunchMode) {t : Track} (hne : t ≠ (s.group g).track) :
    (s.launchedNow g m).armedQueue t = s.armedQueue t := by
  rw [State.launchedNow_armedQueue, State.appliedNow, State.applyGroup_queue_ne]
  · rfl
  · rw [State.launching_group_self]; exact hne

/-- What an apply keeps, a launch with its READY choice keeps. -/
theorem State.applyLevel_launchedNow (s : State) (g : GroupNo) (m : LaunchMode) : (s.launching g m).ApplyLevel (s.launchedNow g m) := by
  have ha := State.applyLevel_applyGroup s.slots s.slots (s.launching g m) g
  rcases s.launchedNow_cases g m with h | ⟨-, h⟩
  · rw [h]; exact ha
  · have hc := State.choice_readyChoice (s.appliedNow g m) (s.group g).track
    rw [h]
    exact ha.trans ⟨(State.sequencer_readyChoice _ _).run, hc.aside.cut, hc.status, hc.readsDone⟩

theorem State.launchedNow_groupDone (s : State) (g : GroupNo) (m : LaunchMode) : (s.launchedNow g m).flags.get .groupDone = true :=
  (s.launchedNow_choiceLevel g m).flags _ (State.applyGroup_groupDone _ _ _ _)

/-- The state a launch applied at once leaves, with its answer. -/
def State.launchAnswered (s : State) (g : GroupNo) (m : LaunchMode) : State :=
  { s.launchedNow g m with buffer := .ready ⟨.ok, .launched .idle ((s.launchedNow g m).group g).last none⟩ }

theorem exec_groupLaunch_now {k : Nat} (hp : s.portFree) (ho : (s.group g).state = .opened) (hm : launchModeOf k = some m)
    (hn : m = .now ∨ (s.track (s.group g).track).onAir = none) :
    exec (.groupLaunch g.val k) s = .next (s.launchAnswered g m) := by
  have hl : (s.select 3).launchGroup g m = s.launchedNow g m := if_pos hn
  have hi : ((s.launchedNow g m).group g).state = .idle := by
    obtain ⟨last, h, -⟩ := s.launchedNow_group_self g m
    rw [h]
  rw [exec_groupLaunch hp, State.serveGroupLaunch_opened (s := s.select 3) ho hm, hl, hi, State.placeOf_of_ne (by simp [hi])]
  rfl

/-- The edits of a group stopped: the reserved slots are free, the group IDLE and GROUP_DONE raised, and nothing else has changed (R35). -/
theorem State.launchedNow_error {cause : Result} {k : Nat} (h : s.launchRun g m = .error (cause, k)) :
    s.launchedNow g m =
      (((s.launching g m).freeReserved (s.group g).reserved).idleGroup g (.rejected cause k)).raise .groupDone := by
  have he : s.appliedNow g m =
      (((s.launching g m).freeReserved (s.group g).reserved).idleGroup g (.rejected cause k)).raise .groupDone := by
    have hx := State.applyGroup_error (s := s.launching g m) (pre := s.slots) (post := s.slots) (g := g) (cause := cause) (k := k)
      ((s.runEdits_launching g m).trans h)
    rw [State.appliedNow, hx, s.launching_group_self g m]
  rw [State.launchedNow_rejected, he]
  rw [he, State.raise_group, State.idleGroup_group_self]
  nofun

/-- The edits of a group all carried out. -/
theorem State.appliedNow_ok (h : s.launchRun g m = .ok v) : s.appliedNow g m = (v.idleGroup g .applied).raise .groupDone :=
  State.applyGroup_ok ((s.runEdits_launching g m).trans h)

end Sys2Proof.Machine
end

section
/-! PROOFS. GROUP.LAUNCH applied at once: what its answered state keeps, and what a rejected and an empty group leave (R31, R33, R35). -/

namespace Sys2Proof.Machine

variable {s u v : State} {g : GroupNo} {m : LaunchMode}

theorem State.launchAnswered_group (s : State) (g h : GroupNo) (m : LaunchMode) :
    (s.launchAnswered g m).group h = (s.launchedNow g m).group h := rfl

/-- The answered state of a launch, but for its answer, is the apply's, or that of the READY choice after an APPLIED group. -/
theorem State.launchAnswered_cases (s : State) (g : GroupNo) (m : LaunchMode) :
    s.launchAnswered g m = { s.appliedNow g m with buffer := (s.launchAnswered g m).buffer } ∨
      ((s.appliedNow g m).group g).last = .applied ∧ s.launchAnswered g m =
        { (s.appliedNow g m).readyChoice (s.group g).track with buffer := (s.launchAnswered g m).buffer } := by
  rcases s.launchedNow_cases g m with h | ⟨hl, h⟩
  · left; rw [State.launchAnswered, h]
  · right; rw [State.launchAnswered, h]; exact ⟨hl, rfl⟩

theorem State.answers_launchAnswered (s : State) (g : GroupNo) (m : LaunchMode) :
    s.Answers (s.launchAnswered g m) 3 .ok (.launched .idle ((s.launchAnswered g m).group g).last none) :=
  have h := (s.applyLevel_launchedNow g m).run
  ⟨h.sdoStatus, h.sdo, rfl⟩

theorem State.aside_launching (s : State) (g : GroupNo) (m : LaunchMode) (l : PerTrack Look) :
    (s.setLooks l).Aside ((s.launching g m).setLooks l) := by constructor <;> rfl

theorem State.aside_buffer (s : State) (b : Buffer) : s.Aside { s with buffer := b } := by constructor <;> rfl

theorem State.aside_launchAnswered (s : State) (g : GroupNo) (m : LaunchMode) :
    (s.setLooks (s.launchAnswered g m).looks).Aside (s.launchAnswered g m) := by
  have h := (s.applyLevel_launchedNow g m).aside
  rw [State.launchAnswered]
  exact ((s.aside_launching g m _).trans h).trans (State.aside_buffer _ _)

/-- A rejected group leaves no other mark than its freed slots, its IDLE record and the event (R35). -/
theorem State.launchAnswered_error {cause : Result} {k : Nat} (h : s.launchRun g m = .error (cause, k)) :
    (s.launchAnswered g m =
      { s.answeredWith 3 .ok (.launched .idle ((s.launchAnswered g m).group g).last none) with
        slots := (s.launchAnswered g m).slots, groups := (s.launchAnswered g m).groups, armed := (s.launchAnswered g m).armed
        flags := s.flags.put .groupDone }) ∧
    (∀ i, i ∈ (s.group g).reserved →
      (s.launchAnswered g m).slot i = { revision := (s.slot i).revision, airing := (s.slot i).airing }) ∧
    ∀ i, i ∉ (s.group g).reserved → (s.launchAnswered g m).slot i = s.slot i := by
  have hn := State.launchedNow_error h
  refine ⟨?_, fun i hi => ?_, fun i hi => ?_⟩
  · have he : s.launchedNow g m = { s.select 3 with
        slots := (s.launchedNow g m).slots, groups := (s.launchedNow g m).groups, armed := (s.launchedNow g m).armed
        flags := s.flags.put .groupDone } := by
      rw [hn, State.freeReserved_eq]; rfl
    exact congrArg (fun u : State =>
      { u with buffer := .ready ⟨.ok, .launched .idle ((s.launchedNow g m).group g).last none⟩ }) he
  · show (s.launchedNow g m).slot i = _
    rw [hn]
    exact State.freeReserved_slot_of_mem hi _
  · show (s.launchedNow g m).slot i = _
    rw [hn]
    exact State.freeReserved_slot_of_notMem hi _

theorem State.launchedNow_last_error {cause : Result} {k : Nat} (h : s.launchRun g m = .error (cause, k)) :
    ((s.launchedNow g m).group g).last = .rejected cause k := by
  rw [State.launchedNow_error h, State.raise_group, State.idleGroup_group_self]
  rfl

theorem State.launchedNow_last_ok (h : s.launchRun g m = .ok v) :
    ((s.launchedNow g m).group g).last = .applied := by
  rw [State.launchedNow_group, State.appliedNow_ok h, State.raise_group, State.idleGroup_group_self]
  rfl

/-- A launch applied at once ends its group APPLIED, or REJECTED at one of its edits with nothing else marked (R33, R35). -/
theorem State.launchAnswered_settles (s : State) (g : GroupNo) (m : LaunchMode) :
    ((s.launchAnswered g m).group g).last = .applied ∨
      ∃ cause k, ((s.launchAnswered g m).group g).last = .rejected cause k ∧ k < (s.group g).edits.length ∧
        (s.launchAnswered g m =
          { s.answeredWith 3 .ok (.launched .idle ((s.launchAnswered g m).group g).last none) with
            slots := (s.launchAnswered g m).slots, groups := (s.launchAnswered g m).groups, armed := (s.launchAnswered g m).armed
            flags := s.flags.put .groupDone }) ∧
        (∀ i, i ∈ (s.group g).reserved →
          (s.launchAnswered g m).slot i = { revision := (s.slot i).revision, airing := (s.slot i).airing }) ∧
        ∀ i, i ∉ (s.group g).reserved → (s.launchAnswered g m).slot i = s.slot i := by
  cases h : s.launchRun g m with
  | ok v => exact .inl (State.launchedNow_last_ok h)
  | error r =>
    obtain ⟨cause, k⟩ := r
    obtain ⟨before, e, after, v, hl, hk, -, -⟩ := State.stopped_runEdits h
    refine .inr ⟨cause, k, State.launchedNow_last_error h, ?_, State.launchAnswered_error h⟩
    rw [hl, hk, List.length_append, List.length_cons]
    omega

/-- A group with no edits is APPLIED, and its launch changes nothing but its record, its queue, the event and the answer. -/
theorem State.launchedNow_nil (h : (s.group g).edits = []) :
    s.launchedNow g m = ((s.launching g m).idleGroup g .applied).raise .groupDone := by
  have hr : s.launchRun g m = .ok (s.launching g m) := by rw [State.launchRun, h]; rfl
  rw [State.launchedNow_still (by rw [State.launchHands, h]; rfl), State.appliedNow_ok hr]

theorem State.launchAnswered_nil (h : (s.group g).edits = []) :
    (s.launchAnswered g m = { s.answeredWith 3 .ok (.launched .idle .applied none) with
      groups := (s.launchAnswered g m).groups, armed := (s.launchAnswered g m).armed, flags := s.flags.put .groupDone }) ∧
      ((s.launchAnswered g m).group g).last = .applied := by
  have hl : ((s.launchedNow g m).group g).last = .applied := by
    rw [State.launchedNow_nil h, State.raise_group, State.idleGroup_group_self]; rfl
  refine ⟨?_, hl⟩
  rw [State.launchAnswered, hl, State.launchedNow_nil h]
  rfl

end Sys2Proof.Machine

namespace Sys2Proof

open Sys2Proof.Machine

/-- Settles O22: each branch of GROUP.LAUNCH's rule, and for an apply made at once what it and the READY choice keep. -/
theorem groupLaunchArmsOrApplies : Obligations.GroupLaunchArmsOrApplies := by
  intro s g hp
  refine ⟨fun n m h => ?_, fun m hm h => ?_, exec_groupLaunch_armed hp, ?_⟩
  · rw [exec_groupLaunch hp, State.serveGroupLaunch_range h, State.refuse_buffered]
  · rw [exec_groupLaunch hp, State.serveGroupLaunch_state (s := s.select 3) h hm, State.refuse_buffered]
  · rintro n m hm ho hn w rfl
    have hk := s.applyLevel_launchedNow g m
    refine ⟨s.appliedNow g m, s.launchAnswered g m, exec_groupLaunch_now hp ho hm hn, State.groupApplied_applyGroup _ _ _ _,
      s.launchAnswered_cases g m, s.launchedNow_queue_self g m, fun r hr => s.launchedNow_queue_ne g m hr, ?_,
      fun h hne => s.launchedNow_group_ne m hne, s.launchedNow_groupDone g m, hk.run.flags, s.aside_launchAnswered g m,
      hk.run.looks, s.answers_launchAnswered g m, s.launchAnswered_settles g m, fun h => State.launchAnswered_nil h⟩
    obtain ⟨last, hl, -⟩ := s.launchedNow_group_self g m
    rw [s.launchAnswered_group, hl]

end Sys2Proof
end

section
/-! SUPPORT. Which edits hand a changed event, what an update and a CREATE leave of the table, and what a READY choice leaves of an
item it does not reach (R9, R14, R29, R33, R44). -/

namespace Sys2Proof.Machine

variable {s u v : State} {ref : Reference} {i : Slot} {t : Track}

/-! ### Edits that hand a changed event (R9, R14 to R19) -/

/-- A list replaced, or an update that leaves the floated field alone: an edit of no place and no state. -/
def EditBody.Still (b : EditBody) : Prop := (∃ l, b = .cues l) ∨ ∃ p, b = .update p ∧ p.floated = none

theorem EditBody.Still.hands {b : EditBody} (h : b.Still) (x : Item) : b.hands x = false := by
  rcases h with ⟨l, rfl⟩ | ⟨p, rfl, hp⟩
  · rfl
  · simp [EditBody.hands, hp]

theorem EditBody.hands_moving {b : EditBody} (hc : ∀ l, b ≠ .cues l) (hu : ∀ p, b ≠ .update p) (x : Item) : b.hands x = true := by
  cases b with
  | cues l => exact absurd rfl (hc l)
  | update p => exact absurd rfl (hu p)
  | _ => rfl

theorem State.editsHand_still {l : List StagedEdit} (h : ∀ e ∈ l, e.body.Still) (s : State) : State.editsHand ref l s = false := by
  induction l generalizing s with
  | nil => rfl
  | cons e l ih =>
    rw [State.editsHand, (h e (by simp)).hands, ih fun d hd => h d (List.mem_cons_of_mem e hd)]
    rfl

theorem State.editsHand_moving {e : StagedEdit} {l : List StagedEdit} (he : e ∈ l) (hc : ∀ l, e.body ≠ .cues l)
    (hu : ∀ p, e.body ≠ .update p) (s : State) : State.editsHand ref l s = true := by
  induction l generalizing s with
  | nil => cases he
  | cons d l ih =>
    rw [State.editsHand, Bool.or_eq_true]
    rcases List.mem_cons.mp he with rfl | hl
    · exact .inl (EditBody.hands_moving hc hu _)
    · exact .inr (ih hl _)

/-! ### An update and a CREATE carried out (R13, R14) -/

/-- An update carried out keeps the watch it finds, writes its item's record, and else reaches the prompter's link alone. -/
theorem State.performEdit_update (s : State) (i : Slot) (c : Bool) (p : Patch) : s.performEdit i c (.update p) =
    ({ s.keepWatch with prompterTx := (s.performEdit i c (.update p)).prompterTx }).setSlot i
      { s.slot i with
        revision := if c then (s.slot i).revision else nextRevision (s.slot i).revision
        fields := p.apply (s.slot i).fields } :=
  (s.editMade_performEdit i c (.update p)).1

theorem State.performEdit_update_slot (s : State) (i : Slot) (c : Bool) (p : Patch) : (s.performEdit i c (.update p)).slot i =
    { s.slot i with
      revision := if c then (s.slot i).revision else nextRevision (s.slot i).revision
      fields := p.apply (s.slot i).fields } := by
  rw [State.performEdit_update]
  exact State.setSlot_slot_self _ _ _

theorem State.performEdit_update_slot_ne (s : State) (c : Bool) (p : Patch) {j : Slot} (h : j ≠ i) :
    (s.performEdit i c (.update p)).slot j = s.slot j := by
  rw [State.performEdit_update]
  exact State.setSlot_slot_ne _ _ _ h

theorem State.performEdit_update_orders (s : State) (i : Slot) (c : Bool) (p : Patch) :
    (s.performEdit i c (.update p)).orders = s.orders := by
  rw [State.performEdit_update]; rfl

theorem State.performEdit_create_slot (s : State) (i : Slot) (c : Bool) (t : Track) (a : Option Slot) (f : Fields) (l : List CueSpec) :
    (s.performEdit i c (.create t a f l)).slot i =
      { condition := .live, revision := nextRevision (s.slot i).revision, airing := (s.slot i).airing, track := t, fields := f
        state := .planned, cues := l.map CueSpec.fresh } := State.setSlot_slot_self _ _ _

theorem State.performEdit_create_order (s : State) (i : Slot) (c : Bool) (t : Track) (a : Option Slot) (f : Fields) (l : List CueSpec) :
    (s.performEdit i c (.create t a f l)).order t = insertAfter a i (s.order t) := State.setOrder_order_self _ _ _

theorem mem_insertAfter (a : Option Slot) (i : Slot) (l : List Slot) : i ∈ insertAfter a i l := by
  induction l with
  | nil => simp [insertAfter]
  | cons x l ih =>
    cases a with
    | none => simp [insertAfter]
    | some a =>
      rw [insertAfter]
      split
      · simp
      · exact List.mem_cons_of_mem x ih

/-! ### An update that an apply lets pass -/

/-- An update that changes neither the key, the kind nor the floated field: one that R15 allows of an item on air. -/
structure Patch.Plain (p : Patch) : Prop where
  key : p.key = none
  floated : p.floated = none
  kind : p.kind = none

theorem State.checkEdit_plain {r : Option Word16} {p : Patch} (hp : p.Plain) (hn : s.Names ref ⟨i, r, .update p⟩) :
    s.checkEdit ref i r (.update p) = none :=
  ((s.judges_checkEdit ref ⟨i, r, .update p⟩).updated hn p rfl
    fun _ => ⟨by rw [hp.floated]; nofun, hp.key, hp.kind⟩).2 fun k hk => by rw [hp.key] at hk; cases hk

/-! ### A READY choice and an item it does not reach (R44, R45) -/

theorem State.emitScript_slot (s : State) (x : Option Word32) (f : Word32 → OutFrame) (i : Slot) :
    (s.emitScript x f).slot i = s.slot i := by
  cases x <;> rfl

/-- An item that leaves READY keeps its airing, and so does every other. -/
theorem State.unready_airing (s : State) (t : Track) (i : Slot) : ((s.unready t).slot i).airing = (s.slot i).airing := by
  unfold State.unready
  split
  · rfl
  · next r _ =>
    rw [State.setTrack_slot, ((State.cueLevel_abandonPhase _ r .ready).items i).airing]
    split
    · rw [State.setSlot_slot]
      split
      · next e => rw [e]
      · rfl
    · rfl

theorem State.enterReady_airing_ne (s : State) (t : Track) {i j : Slot} (h : i ≠ j) :
    ((s.enterReady t j).slot i).airing = (s.slot i).airing := by
  rw [State.enterReady, State.emitScript_slot, ((State.cueLevel_armPhase _ .ready _ j).items i).airing, State.setTrack_slot,
    State.setSlot_slot_ne _ _ _ h]

/-- The READY choice advances the airing of a candidate alone. -/
theorem State.readyChoice_airing (h : i ∉ s.candidates t) : ((s.readyChoice t).slot i).airing = (s.slot i).airing := by
  unfold State.readyChoice
  dsimp only
  split
  · rfl
  · split
    · exact s.unready_airing t i
    · next j hj =>
      rw [State.enterReady_airing_ne, s.unready_airing]
      rintro rfl
      exact h (List.mem_of_mem_head? hj)

theorem State.notMem_candidates (h : (s.slot i).fields.floated = true) : i ∉ s.candidates t := by
  simp [State.candidates, State.isCandidate, h]

end Sys2Proof.Machine
end

section
/-! PROOFS. The edits of a group that a launch applies at once: two updates of one item, a stale one, and a slot the group created (R29,
R32, R33). -/

namespace Sys2Proof.Machine

variable {s v x : State} {g : GroupNo} {m : LaunchMode} {i : Slot} {p q : Patch}

/-! ### What a launch compares its group with (R29) -/

theorem State.launchReference_revision (s : State) (g : GroupNo) (m : LaunchMode) (i : Slot) :
    (s.launchReference g m).revision i = (s.slot i).revision := if_pos rfl

theorem State.launchReference_exempt (s : State) (g : GroupNo) (m : LaunchMode) :
    (s.launchReference g m).exempt = (s.group g).reserved := by
  rw [State.launchReference, s.launching_group_self g m]
  rfl

theorem State.launchReference_track (s : State) (g : GroupNo) (m : LaunchMode) :
    (s.launchReference g m).track = some (s.group g).track := by
  rw [State.launchReference, s.launching_group_self g m]
  rfl

/-- A live item of the group's track is named by the revision it held when the apply began, or as one the group has reserved. -/
theorem State.launch_names {r : Option Word16} (hl : (x.slot i).isLive = true) (ht : (x.slot i).track = (s.group g).track)
    (hr : i ∈ (s.group g).reserved ∨ r = some (s.slot i).revision) : x.Names (s.launchReference g m) ⟨i, r, .update p⟩ := by
  refine ⟨rfl, hl, ?_, fun t h => ?_⟩
  · rwa [s.launchReference_exempt, s.launchReference_revision]
  · rw [s.launchReference_track] at h
    exact ht.trans (Option.some.inj h)

/-- A plain update of such an item is carried out, and the edits behind it run on. -/
theorem State.launch_runs_update {r : Option Word16} (hp : p.Plain) (hl : (x.slot i).isLive = true)
    (ht : (x.slot i).track = (s.group g).track) (hr : i ∈ (s.group g).reserved ∨ r = some (s.slot i).revision) (k : Nat)
    (l : List StagedEdit) : State.runEdits (s.launchReference g m) k (⟨i, r, .update p⟩ :: l) x =
      State.runEdits (s.launchReference g m) (k + 1) l (x.performEdit i ((s.group g).reserved.contains i) (.update p)) := by
  rw [State.runEdits_cons_ok (e := ⟨i, r, .update p⟩) (State.checkEdit_plain hp (State.launch_names hl ht hr)),
    s.launchReference_exempt]

/-! ### The launch of a group whose edits all pass -/

theorem State.launchAnswered_last_ok (h : s.launchRun g m = .ok v) : ((s.launchAnswered g m).group g).last = .applied :=
  State.launchedNow_last_ok h

/-- Edits that hand no changed event leave each slot as the launch answers it. -/
theorem State.launchAnswered_slot_still (h : s.launchRun g m = .ok v) (hs : ∀ e ∈ (s.group g).edits, e.body.Still) (i : Slot) :
    (s.launchAnswered g m).slot i = v.slot i := by
  show (s.launchedNow g m).slot i = _
  rw [State.launchedNow_still (State.editsHand_still hs _), State.appliedNow_ok h]
  rfl

/-- An edit of a place or a state is followed by the READY choice. -/
theorem State.launchedNow_moving (h : s.launchRun g m = .ok v) {e : StagedEdit} (he : e ∈ (s.group g).edits)
    (hc : ∀ l, e.body ≠ .cues l) (hu : ∀ p, e.body ≠ .update p) :
    s.launchedNow g m = ((v.idleGroup g .applied).raise .groupDone).readyChoice (s.group g).track := by
  have ha := State.appliedNow_ok h
  rw [State.launchedNow_choice _ (State.editsHand_moving he hc hu _), ha]
  rw [ha, State.raise_group, State.idleGroup_group_self]
  rfl

/-! ### Two updates of one item (R29, R32) -/

theorem still_updates (hp : p.Plain) (hq : q.Plain) (r r' : Option Word16) :
    ∀ e ∈ [(⟨i, r, .update p⟩ : StagedEdit), ⟨i, r', .update q⟩], e.body.Still := by
  intro e he
  rcases List.mem_pair.mp he with rfl | rfl
  · exact .inr ⟨p, rfl, hp.floated⟩
  · exact .inr ⟨q, rfl, hq.floated⟩

theorem State.launchRun_updates (hp : p.Plain) (hq : q.Plain) (hl : (s.slot i).isLive = true)
    (ht : (s.slot i).track = (s.group g).track) (hi : i ∉ (s.group g).reserved)
    (he : (s.group g).edits = [⟨i, some (s.slot i).revision, .update p⟩, ⟨i, some (s.slot i).revision, .update q⟩]) :
    s.launchRun g m = .ok (((s.launching g m).performEdit i false (.update p)).performEdit i false (.update q)) := by
  have hc : (s.group g).reserved.contains i = false := by simpa using hi
  rw [State.launchRun, he, State.launch_runs_update (x := s.launching g m) hp hl ht (.inr rfl),
    State.launch_runs_update hq _ _ (.inr rfl), hc]
  · rfl
  · rw [State.performEdit_update_slot]; exact hl
  · rw [State.performEdit_update_slot]; exact ht

theorem State.launchAnswered_updates (hp : p.Plain) (hq : q.Plain) (hl : (s.slot i).isLive = true)
    (ht : (s.slot i).track = (s.group g).track) (hi : i ∉ (s.group g).reserved)
    (he : (s.group g).edits = [⟨i, some (s.slot i).revision, .update p⟩, ⟨i, some (s.slot i).revision, .update q⟩]) :
    ((s.launchAnswered g m).group g).last = .applied ∧
      ((s.launchAnswered g m).slot i).revision = nextRevision (nextRevision (s.slot i).revision) ∧
      ((s.launchAnswered g m).slot i).fields = q.apply (p.apply (s.slot i).fields) ∧
      ∀ j, j ≠ i → (s.launchAnswered g m).slot j = s.slot j := by
  have hr := State.launchRun_updates (m := m) hp hq hl ht hi he
  have hs := State.launchAnswered_slot_still hr (by rw [he]; exact still_updates hp hq _ _)
  refine ⟨State.launchAnswered_last_ok hr, ?_, ?_, fun j hj => ?_⟩
  · rw [hs, State.performEdit_update_slot, State.performEdit_update_slot]; rfl
  · rw [hs, State.performEdit_update_slot, State.performEdit_update_slot]; rfl
  · rw [hs, State.performEdit_update_slot_ne _ _ _ hj, State.performEdit_update_slot_ne _ _ _ hj]; rfl

/-- A stale revision stops the group at that edit, and the update before it leaves nothing. -/
theorem State.launchRun_stale {r : Option Word16} (hp : p.Plain) (hl : (s.slot i).isLive = true)
    (ht : (s.slot i).track = (s.group g).track) (hi : i ∉ (s.group g).reserved) (hr : r ≠ some (s.slot i).revision)
    (he : (s.group g).edits = [⟨i, some (s.slot i).revision, .update p⟩, ⟨i, r, .update q⟩]) :
    s.launchRun g m = .error (.stale, 1) := by
  rw [State.launchRun, he, State.launch_runs_update (x := s.launching g m) hp hl ht (.inr rfl)]
  refine State.runEdits_cons_error ((State.judges_checkEdit _ _ ⟨i, r, .update q⟩).stale rfl ?_ ?_ ?_) 1 []
  · rw [State.performEdit_update_slot]; exact hl
  · rwa [s.launchReference_exempt]
  · rwa [s.launchReference_revision]

/-! ### A slot the group created (R29) -/

/-- The table as a CREATE and a plain update of the slot it reserved leave it. -/
def State.createdAndUpdated (s : State) (g : GroupNo) (m : LaunchMode) (i : Slot) (f : Fields) (l : List CueSpec) (q : Patch) : State :=
  ((s.launching g m).performEdit i true (.create (s.group g).track none f l)).performEdit i true (.update q)

theorem State.createdAndUpdated_slot (s : State) (g : GroupNo) (m : LaunchMode) (i : Slot) (f : Fields) (l : List CueSpec) (q : Patch) :
    (s.createdAndUpdated g m i f l q).slot i =
      { condition := .live, revision := nextRevision (s.slot i).revision, airing := (s.slot i).airing, track := (s.group g).track
        fields := q.apply f, state := .planned, cues := l.map CueSpec.fresh } := by
  rw [State.createdAndUpdated, State.performEdit_update_slot, State.performEdit_create_slot]
  rfl

theorem State.createdAndUpdated_order (s : State) (g : GroupNo) (m : LaunchMode) (i : Slot) (f : Fields) (l : List CueSpec) (q : Patch) :
    i ∈ (s.createdAndUpdated g m i f l q).order (s.group g).track := by
  rw [State.order, State.createdAndUpdated, State.performEdit_update_orders]
  show i ∈ ((s.launching g m).performEdit i true (.create (s.group g).track none f l)).order (s.group g).track
  rw [State.performEdit_create_order]
  exact mem_insertAfter _ _ _

theorem State.launchRun_created {r : Option Word16} {f : Fields} {l : List CueSpec} (hq : q.Plain) (hi : i ∈ (s.group g).reserved)
    (hk : ¬s.keyTaken f.key.toNat none)
    (he : (s.group g).edits = [⟨i, none, .create (s.group g).track none f l⟩, ⟨i, r, .update q⟩]) :
    s.launchRun g m = .ok (s.createdAndUpdated g m i f l q) := by
  have hc : (s.group g).reserved.contains i = true := by simpa using hi
  have h1 : (s.launching g m).checkEdit (s.launchReference g m) i none (.create (s.group g).track none f l) = none :=
    State.checkEdit_create.trans (State.checkPlace_create_none State.not_anchorBad_head hk)
  rw [State.launchRun, he, State.runEdits_cons_ok (e := ⟨i, none, .create (s.group g).track none f l⟩) h1, s.launchReference_exempt,
    State.launch_runs_update hq _ _ (.inl hi), hc]
  · rfl
  · rw [State.performEdit_create_slot]; rfl
  · rw [State.performEdit_create_slot]

/-- The edits of a slot the group created advance its revision once in all and keep its airing, and the item stands in the order. -/
theorem State.launchAnswered_created {r : Option Word16} {f : Fields} {l : List CueSpec} (hq : q.Plain)
    (hi : i ∈ (s.group g).reserved) (hk : ¬s.keyTaken f.key.toNat none) (hf : f.floated = true)
    (he : (s.group g).edits = [⟨i, none, .create (s.group g).track none f l⟩, ⟨i, r, .update q⟩]) :
    ((s.launchAnswered g m).group g).last = .applied ∧ ((s.launchAnswered g m).slot i).condition = .live ∧
      ((s.launchAnswered g m).slot i).revision = nextRevision (s.slot i).revision ∧
      ((s.launchAnswered g m).slot i).airing = (s.slot i).airing ∧ ((s.launchAnswered g m).slot i).fields = q.apply f ∧
      i ∈ (s.launchAnswered g m).order (s.group g).track := by
  have hr := State.launchRun_created (m := m) hq hi hk he
  have hn : s.launchedNow g m = (((s.createdAndUpdated g m i f l q).idleGroup g .applied).raise .groupDone).readyChoice
      (s.group g).track :=
    State.launchedNow_moving hr (e := ⟨i, none, .create (s.group g).track none f l⟩) (by rw [he]; simp) (fun _ => by simp)
      (fun _ => by simp)
  have hx := s.createdAndUpdated_slot g m i f l q
  generalize hw : ((s.createdAndUpdated g m i f l q).idleGroup g .applied).raise .groupDone = w at hn
  have hwi : w.slot i = (s.createdAndUpdated g m i f l q).slot i := by rw [← hw]; rfl
  rw [hx] at hwi
  have hfl : (w.slot i).fields.floated = true := by
    rw [hwi]
    show q.floated.getD f.floated = true
    rw [hq.floated, hf]; rfl
  have hu := State.choice_readyChoice w (s.group g).track
  have ha := hu.items i
  refine ⟨State.launchAnswered_last_ok hr, ?_, ?_, ?_, ?_, ?_⟩
  · show ((s.launchedNow g m).slot i).condition = _
    rw [hn, ha.condition, hwi]
  · show ((s.launchedNow g m).slot i).revision = _
    rw [hn, ha.revision, hwi]
  · show ((s.launchedNow g m).slot i).airing = _
    rw [hn, State.readyChoice_airing (State.notMem_candidates hfl), hwi]
  · show ((s.launchedNow g m).slot i).fields = _
    rw [hn, ha.fields, hwi]
  · show i ∈ (s.launchedNow g m).orders.get (s.group g).track
    rw [hn, hu.orders, ← hw]
    exact s.createdAndUpdated_order g m i f l q

end Sys2Proof.Machine

namespace Sys2Proof

open Sys2Proof.Machine

/-- Settles O23: a list of edits by induction on it, and a launch applied at once by the READY choice it makes or not. -/
theorem groupEditsAreJudgedFromTheStart : Obligations.GroupEditsAreJudgedFromTheStart := by
  refine ⟨fun ref k l s => ⟨fun u h => State.carried_runEdits h, fun cause n h => State.stopped_runEdits h⟩, ?_, ?_⟩
  · rintro s w g n m hp ho hm hn rfl
    refine ⟨s.appliedNow g m, s.launchAnswered g m, exec_groupLaunch_now hp ho hm hn, State.groupApplied_applyGroup _ _ _ _,
      congrArg Group.last (s.launchedNow_group g g m), (s.launchAnswered_cases g m).imp_right And.right, fun h => ?_, ?_⟩
    · have he : s.launchedNow g m = s.appliedNow g m := by
        rcases h with h | h
        · exact State.launchedNow_rejected h
        · exact State.launchedNow_still (State.editsHand_still h _)
      rw [State.launchAnswered, he]
    · rintro hl ⟨e, he, hc, hu⟩
      rw [State.launchAnswered, State.launchedNow_choice hl (State.editsHand_moving he hc hu _)]
  · intro s g i p q hp ho hpk hqk hpf hqf hpd hqd
    have hP : p.Plain := ⟨hpk, hpf, hpd⟩
    have hQ : q.Plain := ⟨hqk, hqf, hqd⟩
    have hx : exec (.groupLaunch g.val 0) s = .next (s.launchAnswered g .now) := exec_groupLaunch_now hp ho rfl (.inl rfl)
    refine ⟨fun hl ht hi he => ⟨_, hx, State.launchAnswered_updates hP hQ hl ht hi he⟩, fun r hl ht hi hr he => ?_,
      fun f l r hi _ hk hf he _ _ => ⟨_, hx, State.launchAnswered_created hQ hi hk hf he⟩⟩
    have hs := State.launchRun_stale (m := .now) hP hl ht hi hr he
    exact ⟨_, hx, State.launchedNow_last_error hs, (State.launchAnswered_error hs).2.2 i hi⟩

end Sys2Proof
end

section
/-! SUPPORT. The form of a write request: when it is refused, and what the parsed request holds (R12 step 1, R13 to R19). -/

namespace Sys2Proof.Machine

/-! ### Codes, identifiers and anchors -/

theorem trackOf_none_iff {n : Nat} : trackOf n = none ↔ 2 ≤ n := by
  refine ⟨fun h => ?_, trackOf_of_le⟩
  match n, h with
  | n + 2, _ => omega

theorem kindOf_none_iff {n : Nat} : kindOf n = none ↔ 5 ≤ n := by
  refine ⟨fun h => ?_, fun h => ?_⟩
  · match n, h with
    | n + 5, _ => omega
  · match n, h with
    | n + 5, _ => rfl

theorem phaseOf_none_iff {n : Nat} : phaseOf n = none ↔ 3 ≤ n := by
  refine ⟨fun h => ?_, fun h => ?_⟩
  · match n, h with
    | n + 3, _ => omega
  · match n, h with
    | n + 3, _ => rfl

theorem actionOf_none_iff {n : Nat} : actionOf n = none ↔ 6 ≤ n := by
  refine ⟨fun h => ?_, fun h => ?_⟩
  · match n, h with
    | n + 6, _ => omega
  · match n, h with
    | n + 6, _ => rfl

theorem idOf_none_iff {n v : Nat} : idOf n v = none ↔ n ≤ v := by
  unfold idOf
  split
  · simp; omega
  · simp; omega

theorem anchorOf_none_iff {a : Nat} : anchorOf a = none ↔ anchorFormBad a := by
  unfold anchorOf anchorFormBad
  split
  · next h => simp [h]
  · next h => simp [idOf_none_iff, h]

/-- An anchor that is read is the one that its number gives. -/
theorem anchorCode_of_anchorOf {a : Nat} {x : Option Slot} (h : anchorOf a = some x) : anchorCode x = a := by
  unfold anchorOf at h
  split at h
  · next e => cases h; exact e.symm
  · obtain ⟨i, hi, rfl⟩ := Option.map_eq_some_iff.mp h
    unfold idOf at hi
    split at hi
    · cases hi; rfl
    · cases hi

theorem trackCode_inj {t v : Track} (h : trackOf (trackCode t) = some v) : v = t := by
  rw [trackOf_code] at h
  exact (Option.some.inj h).symm

end Sys2Proof.Machine

namespace Sys2Proof

open Sys2Proof.Machine

/-! ### Cue lists -/

theorem RawCue.parse_none_iff {c : RawCue} : c.parse = none ↔ cueFormBad c := by
  rw [cueFormBad, ← phaseOf_none_iff, ← actionOf_none_iff, RawCue.parse]
  cases phaseOf (c.phaseAction / 16) with
  | none => simp
  | some ph => cases actionOf (c.phaseAction % 16) <;> simp

theorem RawCue.parse_given {c : RawCue} {q : CueSpec} (h : c.parse = some q) : q.GivenBy c := by
  unfold RawCue.parse at h
  split at h
  · next ph act hp ha =>
    cases h
    exact ⟨hp, ha, by cases ph <;> rfl, rfl, rfl⟩
  · cases h

theorem allPresent_none_iff {α : Type} {l : List (Option α)} : allPresent l = none ↔ none ∈ l := by
  induction l with
  | nil => simp [allPresent]
  | cons x l ih => cases x <;> simp [allPresent, ih]

theorem allPresent_some {α β : Type} {f : β → Option α} {l : List β} {r : List α} (h : allPresent (l.map f) = some r) :
    List.Forall₂ (fun q c => f c = some q) r l := by
  induction l generalizing r with
  | nil => cases h; exact .nil
  | cons c l ih =>
    rw [List.map_cons] at h
    cases hc : f c with
    | none => rw [hc] at h; cases h
    | some q =>
      rw [hc] at h
      obtain ⟨r', hr, rfl⟩ := Option.map_eq_some_iff.mp h
      exact .cons hc (ih hr)

theorem parseCues_none_iff {l : List RawCue} : parseCues l = none ↔ 16 < l.length ∨ ∃ c ∈ l, cueFormBad c := by
  unfold parseCues
  split
  · next h => simpa using .inl h
  · next h =>
    have hl : ¬16 < l.length := h
    rw [allPresent_none_iff, List.mem_map, or_iff_right hl]
    exact exists_congr fun c => and_congr_right fun _ => RawCue.parse_none_iff

/-- A cue list that is read holds each cue as the host gave it (R13). -/
theorem parseCues_given {l : List RawCue} {r : List CueSpec} (h : parseCues l = some r) : List.Forall₂ CueSpec.GivenBy r l := by
  unfold parseCues at h
  split at h
  · cases h
  · exact (allPresent_some h).imp fun _ _ => RawCue.parse_given

theorem parseCues_length {l : List RawCue} {r : List CueSpec} (h : parseCues l = some r) : r.length = l.length :=
  (parseCues_given h).length_eq

/-! ### Field blocks -/

theorem RawBlock.presenterOf_none_iff {b : RawBlock} : b.presenterOf = none ↔ b.flags.testBit 3 = true ∧ 8 ≤ b.presenter := by
  unfold RawBlock.presenterOf
  split
  · next h => simp [idOf_none_iff, h]
  · next h => simp [h]

theorem RawBlock.presenterOf_val {b : RawBlock} {x : Option Pos} (h : b.presenterOf = some x) :
    x.map Fin.val = if b.flags.testBit 3 then some b.presenter else none := by
  unfold RawBlock.presenterOf at h
  split at h
  · next hb =>
    rw [if_pos hb]
    obtain ⟨i, hi, rfl⟩ := Option.map_eq_some_iff.mp h
    unfold idOf at hi
    split at hi
    · cases hi; rfl
    · cases hi
  · next hb =>
    rw [if_neg hb]
    cases h
    rfl

theorem RawBlock.parse_none_iff {b : RawBlock} : b.parse = none ↔
    b.key = 0 ∨ 5 ≤ b.kind ∨ 64 ≤ b.flags ∨ (b.flags.testBit 3 = true ∧ 8 ≤ b.presenter) := by
  rw [← kindOf_none_iff, ← RawBlock.presenterOf_none_iff, RawBlock.parse, RawBlock.flagsBad]
  split
  · next h =>
    have : 64 ≤ b.flags ∨ b.key = 0 := by simpa using h
    tauto
  · next h =>
    obtain ⟨hf, hk⟩ : ¬64 ≤ b.flags ∧ b.key ≠ 0 := by simpa using h
    cases kindOf b.kind with
    | none => simp
    | some k => cases b.presenterOf <;> simp [hf, hk]

theorem clampTo_zero (hi v : Nat) : clampTo 0 hi v = min v hi := by
  unfold clampTo
  split
  · omega
  · split <;> omega

/-- The fields a block gives (R13). -/
theorem RawBlock.parse_given {b : RawBlock} {f : Fields} (h : b.parse = some f) : f.GivenBy {} b (fun _ => true) := by
  unfold RawBlock.parse at h
  split at h
  · cases h
  · split at h
    · next k p hk hp =>
      cases h
      exact ⟨rfl, hk, rfl, RawBlock.presenterOf_val hp, clampTo_zero _ _, clampTo_zero _ _, rfl, rfl, rfl, rfl⟩
    · cases h

theorem RawBlock.clamped_eq (b : RawBlock) : b.clamped = decide (4095 < b.words ∨ 1048575 < b.planned) := by
  rw [Bool.eq_iff_iff]
  simp only [RawBlock.clamped, outside, Bool.or_eq_true, decide_eq_true_eq, Nat.not_lt_zero, false_or]
  rfl

theorem badFieldSet_iff {fields : Nat} : badFieldSet 10 fields = true ↔ fields = 0 ∨ 1024 ≤ fields := by
  simp [badFieldSet]

theorem RawBlock.parsePatch_none_iff {b : RawBlock} {fields : Nat} : b.parsePatch fields = none ↔
    fields = 0 ∨ 1024 ≤ fields ∨ 64 ≤ b.flags ∨ (fields.testBit 0 = true ∧ b.key = 0) ∨
      (fields.testBit 1 = true ∧ 5 ≤ b.kind) ∨ (fields.testBit 3 = true ∧ b.flags.testBit 3 = true ∧ 8 ≤ b.presenter) := by
  rw [← kindOf_none_iff, ← RawBlock.presenterOf_none_iff, RawBlock.parsePatch, RawBlock.flagsBad]
  simp only [ite_eq_left_iff, reduceCtorEq, imp_false, not_not, Bool.or_eq_true, Bool.and_eq_true, badFieldSet_iff,
    decide_eq_true_eq, Option.isNone_iff_eq_none]
  tauto

theorem RawBlock.parsePatch_key {b : RawBlock} {fields : Nat} {p : Patch} (h : b.parsePatch fields = some p) :
    p.key = if fields.testBit 0 then some (BitVec.ofNat 32 b.key) else none := by
  unfold RawBlock.parsePatch at h
  split at h
  · cases h
  · cases h; rfl

/-! ### The parsed request, constructor by constructor -/

theorem Edit.parse_create {t a : Nat} {b : RawBlock} {l : List RawCue} {p : ParsedEdit} (h : (Edit.create t a b l).parse = some p) :
    ∃ v x f r, trackOf t = some v ∧ anchorOf a = some x ∧ b.parse = some f ∧ parseCues l = some r ∧
      p = ⟨none, none, .create v x f r, b.clamped⟩ := by
  rw [Edit.parse] at h
  split at h
  · next v x f r h1 h2 h3 h4 => cases h; exact ⟨v, x, f, r, h1, h2, h3, h4, rfl⟩
  · cases h

theorem Edit.parse_update {id rev fields : Nat} {b : RawBlock} {p : ParsedEdit} (h : (Edit.update id rev fields b).parse = some p) :
    ∃ i q, idOf 512 id = some i ∧ b.parsePatch fields = some q ∧
      p = ⟨some i, some (BitVec.ofNat 16 rev), .update q, b.patchClamped fields⟩ := by
  rw [Edit.parse] at h
  split at h
  · next i q h1 h2 => cases h; exact ⟨i, q, h1, h2, rfl⟩
  · cases h

theorem Edit.parse_move {id rev a : Nat} {p : ParsedEdit} (h : (Edit.move id rev a).parse = some p) :
    ∃ i x, idOf 512 id = some i ∧ anchorOf a = some x ∧ p = ⟨some i, some (BitVec.ofNat 16 rev), .move x, false⟩ := by
  rw [Edit.parse] at h
  split at h
  · next i x h1 h2 => cases h; exact ⟨i, x, h1, h2, rfl⟩
  · cases h

theorem Edit.parse_retire {id rev : Nat} {p : ParsedEdit} (h : (Edit.retire id rev).parse = some p) :
    ∃ i, idOf 512 id = some i ∧ p = ⟨some i, some (BitVec.ofNat 16 rev), .retire, false⟩ := by
  obtain ⟨i, hi, e⟩ := Option.map_eq_some_iff.mp h
  exact ⟨i, hi, e.symm⟩

theorem Edit.parse_restore {id rev : Nat} {p : ParsedEdit} (h : (Edit.restore id rev).parse = some p) :
    ∃ i, idOf 512 id = some i ∧ p = ⟨some i, some (BitVec.ofNat 16 rev), .restore, false⟩ := by
  obtain ⟨i, hi, e⟩ := Option.map_eq_some_iff.mp h
  exact ⟨i, hi, e.symm⟩

theorem Edit.parse_cues {id rev : Nat} {l : List RawCue} {p : ParsedEdit} (h : (Edit.cues id rev l).parse = some p) :
    ∃ i r, idOf 512 id = some i ∧ parseCues l = some r ∧ p = ⟨some i, some (BitVec.ofNat 16 rev), .cues r, false⟩ := by
  rw [Edit.parse] at h
  split at h
  · next i r h1 h2 => cases h; exact ⟨i, r, h1, h2, rfl⟩
  · cases h

/-- Step 1 of R12 refuses what is badly formed, and nothing else. -/
theorem Edit.parse_none_iff {e : Edit} : e.parse = none ↔ editFormBad e := by
  cases e with
  | create t a b l =>
    have h : (Edit.create t a b l).parse = none ↔ trackOf t = none ∨ anchorOf a = none ∨ b.parse = none ∨ parseCues l = none := by
      rw [Edit.parse]
      rcases hp : b.parse with _ | f
      · cases trackOf t <;> cases anchorOf a <;> simp
      rcases hl : parseCues l with _ | r
      · cases trackOf t <;> cases anchorOf a <;> simp
      cases trackOf t <;> cases anchorOf a <;> simp
    rw [h, trackOf_none_iff, anchorOf_none_iff, RawBlock.parse_none_iff, parseCues_none_iff, editFormBad]
    tauto
  | update id rev fields b =>
    have h : (Edit.update id rev fields b).parse = none ↔ idOf 512 id = none ∨ b.parsePatch fields = none := by
      rw [Edit.parse]
      cases idOf 512 id <;> cases b.parsePatch fields <;> simp
    rw [h, idOf_none_iff, RawBlock.parsePatch_none_iff, editFormBad]
  | move id rev a =>
    have h : (Edit.move id rev a).parse = none ↔ idOf 512 id = none ∨ anchorOf a = none := by
      rw [Edit.parse]
      cases idOf 512 id <;> cases anchorOf a <;> simp
    rw [h, idOf_none_iff, anchorOf_none_iff, editFormBad]
  | retire id rev => rw [Edit.parse, Option.map_eq_none_iff, idOf_none_iff, editFormBad]
  | restore id rev => rw [Edit.parse, Option.map_eq_none_iff, idOf_none_iff, editFormBad]
  | cues id rev l =>
    have h : (Edit.cues id rev l).parse = none ↔ idOf 512 id = none ∨ parseCues l = none := by
      rw [Edit.parse]
      cases idOf 512 id <;> cases parseCues l <;> simp
    rw [h, idOf_none_iff, parseCues_none_iff, editFormBad]

end Sys2Proof
end

section
/-! SUPPORT. The checks of a staged edit, step by step, and what staging it leaves (R27, R28). -/

namespace Sys2Proof.Machine

variable {s : State} {g : GroupNo} {p : ParsedEdit} {i : Slot}

/-! ### A staged edit at a free port -/

/-- A staged edit that has a good form is checked, and staged when no check refuses it. -/
theorem exec_stagedEdit_parsed {e : Edit} (hp : s.portFree) (h : e.parse = some p) : exec (.stagedEdit g.val e) s =
    .next ((s.select (writeLengthOf e)).checked (s.checkStaged (s.group g) p)
      (((s.select (writeLengthOf e)).stage g p).accept p.clamped
        (.staged (((s.select (writeLengthOf e)).stage g p).stagedReport s g (s.stagedSlot p))))).buffered := by
  have hg : g.val ≠ 0xFF := by omega
  rw [exec_stagedEdit hp, State.serveEdit, if_neg hg, idOf_val, State.ranged_some, State.serveStaged, h]
  rfl

theorem exec_stagedEdit_refused {e : Edit} {x : Result} (hp : s.portFree) (h : e.parse = some p)
    (hc : s.checkStaged (s.group g) p = some x) :
    exec (.stagedEdit g.val e) s = .next (s.answeredWith (writeLengthOf e) x .empty) := by
  rw [exec_stagedEdit_parsed hp h, hc, State.checked_some, State.refuse_buffered]

theorem exec_stagedEdit_accepted {e : Edit} (hp : s.portFree) (h : e.parse = some p) (hc : s.checkStaged (s.group g) p = none) :
    exec (.stagedEdit g.val e) s = .next (((s.select (writeLengthOf e)).stage g p).accept p.clamped
      (.staged (((s.select (writeLengthOf e)).stage g p).stagedReport s g (s.stagedSlot p)))).buffered := by
  rw [exec_stagedEdit_parsed hp h, hc, State.checked_none]

theorem exec_stagedEdit_malformed {e : Edit} (hp : s.portFree) (h : e.parse = none) :
    exec (.stagedEdit g.val e) s = .next (s.answeredWith (writeLengthOf e) .range .empty) := by
  have hg : g.val ≠ 0xFF := by omega
  rw [exec_stagedEdit hp, State.serveEdit, if_neg hg, idOf_val, State.ranged_some, State.serveStaged, h, State.ranged_none,
    State.refuse_buffered]

theorem exec_stagedEdit_noGroup {e : Edit} {n : Nat} (hp : s.portFree) (h : 4 ≤ n) (hn : n ≠ 255) :
    exec (.stagedEdit n e) s = .next (s.answeredWith (writeLengthOf e) .range .empty) := by
  rw [exec_stagedEdit hp, State.serveEdit, if_neg hn, idOf_of_le h, State.ranged_none, State.refuse_buffered]

/-! ### Step 2 of R27, and the order of the others -/

/-- A parsed edit names an item: it is no CREATE. -/
structure ParsedEdit.NamesItem (p : ParsedEdit) (i : Slot) : Prop where
  slot : p.slot = some i
  body : ∀ t a f l, p.body ≠ .create t a f l

theorem State.checkStaged_state (h : (s.group g).state ≠ .opened) : s.checkStaged (s.group g) p = some .state := if_pos h

/-- Step 10 of R27: the verdict on the space. -/
def State.spaceVerdict (s : State) (b : EditBody) : Option Result := if s.stagingSpace b then none else some .noSpace

theorem State.checkStaged_opened (h : (s.group g).state = .opened) : s.checkStaged (s.group g) p =
    (s.checkStagedNamed (s.group g) p).or ((s.checkStagedPlace (s.group g) p.slot p.body).or (s.spaceVerdict p.body)) :=
  if_neg fun hn => hn h

/-! ### Steps 3 to 6 of R27: the item named -/

theorem ParsedEdit.NamesItem.check (h : p.NamesItem i) : s.checkStagedNamed (s.group g) p = s.checkStagedItem (s.group g) i p.revision := by
  obtain ⟨slot, rev, b, c⟩ := p
  obtain ⟨hs, hb⟩ := h
  obtain rfl : slot = some i := hs
  cases b with
  | create t a f l => exact absurd rfl (hb t a f l)
  | _ => rfl

theorem State.checkStagedItem_reserved {r : Option Word16} (h : i ∈ (s.group g).reserved) :
    s.checkStagedItem (s.group g) i r = none := by
  simp [State.checkStagedItem, h]

theorem State.checkStagedItem_missing {r : Option Word16} (h : i ∉ (s.group g).reserved) (hl : (s.slot i).isLive = false) :
    s.checkStagedItem (s.group g) i r = some .notFound := by
  simp [State.checkStagedItem, h, hl]

theorem State.checkStagedItem_otherTrack {r : Option Word16} (h : i ∉ (s.group g).reserved) (hl : (s.slot i).isLive = true)
    (ht : (s.slot i).track ≠ (s.group g).track) : s.checkStagedItem (s.group g) i r = some .range := by
  simp [State.checkStagedItem, h, hl, ht]

theorem State.checkStagedItem_stale {r : Word16} (h : i ∉ (s.group g).reserved) (hl : (s.slot i).isLive = true)
    (ht : (s.slot i).track = (s.group g).track) (hr : (s.slot i).revision ≠ r) :
    s.checkStagedItem (s.group g) i (some r) = some .stale := by
  simp [State.checkStagedItem, h, hl, ht, hr.symm]

/-- The item a staged edit names is reserved by its group, or a live item of the group's track with the revision carried. -/
def State.StagedNamed (s : State) (g : GroupNo) (i : Slot) (r : Word16) : Prop :=
  i ∈ (s.group g).reserved ∨ (s.slot i).isLive = true ∧ (s.slot i).track = (s.group g).track ∧ (s.slot i).revision = r

theorem State.StagedNamed.check {r : Word16} (h : s.StagedNamed g i r) : s.checkStagedItem (s.group g) i (some r) = none := by
  by_cases hi : i ∈ (s.group g).reserved
  · exact State.checkStagedItem_reserved hi
  · obtain ⟨hl, ht, hr⟩ := h.resolve_left hi
    simp [State.checkStagedItem, hi, hl, ht, hr]

/-- An edit whose item passes is checked for its place and then for space. -/
theorem State.checkStaged_named {r : Word16} (ho : (s.group g).state = .opened) (hp : p.NamesItem i) (hr : p.revision = some r)
    (hn : s.StagedNamed g i r) : s.checkStaged (s.group g) p =
      (s.checkStagedPlace (s.group g) (some i) p.body).or (s.spaceVerdict p.body) := by
  rw [State.checkStaged_opened ho, hp.check, hr, hn.check, hp.slot, Option.none_or]

/-- An edit whose item fails a check is refused with that check's result. -/
theorem State.checkStaged_unnamed {r : Word16} {x : Result} (ho : (s.group g).state = .opened) (hp : p.NamesItem i)
    (hr : p.revision = some r) (hx : s.checkStagedItem (s.group g) i (some r) = some x) : s.checkStaged (s.group g) p = some x := by
  rw [State.checkStaged_opened ho, hp.check, hr, hx, Option.some_or]

/-! ### Steps 7 to 9 of R27: the anchor, the key and the state -/

/-- The anchor check of a staged edit (R27 step 7). -/
theorem State.stagedAnchorOk_iff {named a : Option Slot} :
    s.stagedAnchorOk (s.group g) named a = true ↔ ¬s.stagedAnchorBad g named (anchorCode a) := by
  cases a with
  | none => exact ⟨fun _ => State.not_stagedAnchorBad_head, fun _ => rfl⟩
  | some a =>
    show _ ↔ ¬s.stagedAnchorBad g named a.val
    rw [State.stagedAnchorBad_slot, Bool.not_eq_false]

theorem State.stagedAnchorOk_false {named a : Option Slot} :
    s.stagedAnchorOk (s.group g) named a = false ↔ s.stagedAnchorBad g named (anchorCode a) := by
  rw [← Bool.not_eq_true, State.stagedAnchorOk_iff, not_not]

theorem State.keyHeldByOther_free {k : Nat} {named : Option Slot} :
    s.keyHeldByOther (BitVec.ofNat 32 k) named = false ↔ ¬s.keyTaken k named := by
  rw [State.keyTaken_iff, Bool.not_eq_true]

theorem State.checkStagedPlace_move (x : Group) (named a : Option Slot) :
    s.checkStagedPlace x named (.move a) = if s.stagedAnchorOk x named a then none else some .range := rfl

theorem State.checkStagedPlace_update_keyed {q : Patch} {k : Word32} (hq : q.key = some k) (x : Group) (named : Option Slot) :
    s.checkStagedPlace x named (.update q) = if s.keyHeldByOther k named then some .duplicate else none := by
  cases q; cases hq; rfl

theorem State.checkStagedPlace_update_keyless {q : Patch} (hq : q.key = none) (x : Group) (named : Option Slot) :
    s.checkStagedPlace x named (.update q) = none := by
  cases q; cases hq; rfl

theorem State.checkStagedPlace_retire (x : Group) (i : Slot) :
    s.checkStagedPlace x (some i) .retire = if x.reserved.contains i then some .state else none := rfl

theorem State.checkStagedPlace_restore (x : Group) (i : Slot) :
    s.checkStagedPlace x (some i) .restore = if x.reserved.contains i then some .state else none := rfl

theorem State.checkStagedPlace_cues (x : Group) (named : Option Slot) (l : List CueSpec) :
    s.checkStagedPlace x named (.cues l) = none := by
  cases named <;> rfl

theorem State.checkStagedPlace_move_bad {a : Option Slot} {named : Option Slot} (h : s.stagedAnchorBad g named (anchorCode a)) :
    s.checkStagedPlace (s.group g) named (.move a) = some .range := by
  rw [State.checkStagedPlace_move, State.stagedAnchorOk_false.mpr h]
  rfl

theorem State.checkStagedPlace_move_ok {a : Option Slot} {named : Option Slot} (h : ¬s.stagedAnchorBad g named (anchorCode a)) :
    s.checkStagedPlace (s.group g) named (.move a) = none := by
  rw [State.checkStagedPlace_move, if_pos (State.stagedAnchorOk_iff.mpr h)]

/-- An update that names a key is refused when the key is taken. -/
theorem State.checkStagedPlace_update_taken {b : RawBlock} {f : Nat} {q : Patch} {named : Option Slot} (hq : b.parsePatch f = some q)
    (hf : f.testBit 0 = true) (h : s.keyTaken b.key named) : s.checkStagedPlace (s.group g) named (.update q) = some .duplicate := by
  have hk := RawBlock.parsePatch_key hq
  rw [if_pos hf] at hk
  rw [State.checkStagedPlace_update_keyed hk, if_pos (State.keyTaken_iff.mp h)]

/-- An update passes when the key it names, if it names one, is free. -/
theorem State.checkStagedPlace_update_free {b : RawBlock} {f : Nat} {q : Patch} {named : Option Slot} (hq : b.parsePatch f = some q)
    (h : f.testBit 0 = true → ¬s.keyTaken b.key named) : s.checkStagedPlace (s.group g) named (.update q) = none := by
  have hk := RawBlock.parsePatch_key hq
  by_cases hf : f.testBit 0 = true
  · rw [if_pos hf] at hk
    rw [State.checkStagedPlace_update_keyed hk, if_neg (mt State.keyTaken_iff.mpr (h hf))]
  · rw [if_neg hf] at hk
    exact State.checkStagedPlace_update_keyless hk _ _

/-- A RETIRE or a RESTORE names no reserved slot (R27 step 9). -/
theorem State.checkStagedPlace_reserved {b : EditBody} (hb : b = .retire ∨ b = .restore) (h : i ∈ (s.group g).reserved) :
    s.checkStagedPlace (s.group g) (some i) b = some .state := by
  have hc : (s.group g).reserved.contains i = true := by simpa using h
  rcases hb with rfl | rfl
  · rw [State.checkStagedPlace_retire, if_pos hc]
  · rw [State.checkStagedPlace_restore, if_pos hc]

theorem State.checkStagedPlace_unreserved {b : EditBody} (hb : b = .retire ∨ b = .restore) (h : i ∉ (s.group g).reserved) :
    s.checkStagedPlace (s.group g) (some i) b = none := by
  have hc : ¬(s.group g).reserved.contains i = true := by simpa using h
  rcases hb with rfl | rfl
  · rw [State.checkStagedPlace_retire, if_neg hc]
  · rw [State.checkStagedPlace_restore, if_neg hc]

/-! ### Step 10 of R27: the space -/

theorem State.spaceVerdict_unstaged {b : EditBody} (h : s.freeStaging = 0) : s.spaceVerdict b = some .noSpace := by
  simp [State.spaceVerdict, State.stagingSpace, h]

theorem State.spaceVerdict_unlisted {b : EditBody} (h : s.freeEntries < b.newEntries) : s.spaceVerdict b = some .noSpace := by
  simp [State.spaceVerdict, State.stagingSpace, h]

theorem State.spaceVerdict_noSlot {t : Track} {a : Option Slot} {f : Fields} {l : List CueSpec} (h : s.lowestFree = none) :
    s.spaceVerdict (.create t a f l) = some .noSpace := by
  simp [State.spaceVerdict, State.stagingSpace, h]

theorem State.spaceVerdict_fits {b : EditBody} (hs : 0 < s.freeStaging) (he : b.newEntries ≤ s.freeEntries)
    (hb : (∀ t a f l, b ≠ .create t a f l) ∨ s.lowestFree.isSome = true) : s.spaceVerdict b = none := by
  cases b with
  | create t a f l =>
    have hf := hb.resolve_left fun h => h t a f l rfl
    simp [State.spaceVerdict, State.stagingSpace, hs, he, hf]
  | _ => simp [State.spaceVerdict, State.stagingSpace, hs, he]

/-! ### A staged CREATE -/

variable {t : Track} {a : Option Slot} {f : Fields} {l : List CueSpec}

theorem State.checkStaged_create_otherTrack {r : Option Word16} {c : Bool} (ho : (s.group g).state = .opened)
    (ht : t ≠ (s.group g).track) : s.checkStaged (s.group g) ⟨none, r, .create t a f l, c⟩ = some .range := by
  simp [State.checkStaged_opened ho, State.checkStagedNamed, ht]

/-- A CREATE for the group's track is checked for its anchor, its key and then for space. -/
theorem State.checkStaged_create {r : Option Word16} {c : Bool} (ho : (s.group g).state = .opened) :
    s.checkStaged (s.group g) ⟨none, r, .create (s.group g).track a f l, c⟩ =
      (s.checkStagedPlace (s.group g) none (.create (s.group g).track a f l)).or
        (s.spaceVerdict (.create (s.group g).track a f l)) := by
  simp [State.checkStaged_opened ho, State.checkStagedNamed]

theorem State.checkStagedPlace_create (x : Group) (t : Track) (a : Option Slot) (f : Fields) (l : List CueSpec) :
    s.checkStagedPlace x none (.create t a f l) =
      if !s.stagedAnchorOk x none a then some .range else if s.keyHeldByOther f.key none then some .duplicate else none := rfl

theorem State.checkStagedPlace_create_range (h : s.stagedAnchorBad g none (anchorCode a)) :
    s.checkStagedPlace (s.group g) none (.create t a f l) = some .range := by
  rw [State.checkStagedPlace_create, State.stagedAnchorOk_false.mpr h]
  rfl

theorem State.checkStagedPlace_create_duplicate (h : ¬s.stagedAnchorBad g none (anchorCode a))
    (hk : s.keyHeldByOther f.key none = true) : s.checkStagedPlace (s.group g) none (.create t a f l) = some .duplicate := by
  rw [State.checkStagedPlace_create, State.stagedAnchorOk_iff.mpr h, hk]
  rfl

theorem State.checkStagedPlace_create_none (h : ¬s.stagedAnchorBad g none (anchorCode a))
    (hk : s.keyHeldByOther f.key none = false) : s.checkStagedPlace (s.group g) none (.create t a f l) = none := by
  rw [State.checkStagedPlace_create, State.stagedAnchorOk_iff.mpr h, hk]
  rfl

/-! ### Staging (R28) -/

theorem ParsedEdit.NamesItem.stagedSlot (h : p.NamesItem i) : s.stagedSlot p = i := by
  obtain ⟨slot, rev, b, c⟩ := p
  obtain ⟨hs, hb⟩ := h
  obtain rfl : slot = some i := hs
  cases b with
  | create t a f l => exact absurd rfl (hb t a f l)
  | _ => rfl

/-- An edit that names its item joins its group's list, and reaches nothing but the group (R28). -/
theorem ParsedEdit.NamesItem.stage (h : p.NamesItem i) : s.stage g p = s.setGroup g { s.group g with
    edits := (s.group g).edits ++ [⟨i, p.revision, p.body⟩]
    reservedEntries := (s.group g).reservedEntries + p.body.newEntries } := by
  obtain ⟨slot, rev, b, c⟩ := p
  obtain ⟨hs, hb⟩ := h
  obtain rfl : slot = some i := hs
  cases b with
  | create t a f l => exact absurd rfl (hb t a f l)
  | _ => rfl

/-- A CREATE reserves its slot besides (R28). -/
theorem State.stage_create {c : Bool} (h : s.lowestFree = some i) : s.stage g ⟨none, none, .create t a f l, c⟩ =
    (s.setSlot i ((s.slot i).reserve t f l)).setGroup g { s.group g with
      edits := (s.group g).edits ++ [⟨i, none, .create t a f l⟩], reserved := (s.group g).reserved ++ [i]
      reservedEntries := (s.group g).reservedEntries + l.length } := by
  have hi : s.stagedSlot ⟨none, none, .create t a f l, c⟩ = i := by rw [State.stagedSlot, h]; rfl
  unfold State.stage
  rw [hi]
  rfl

end Sys2Proof.Machine
end

section
/-! PROOFS. The staged edits: the checks in their order, and what an accepted edit leaves (R27, R28). -/

namespace Sys2Proof.Machine

variable {s : State} {g : GroupNo} {e : Edit} {p : ParsedEdit} {i : Slot}

/-- An edit that names an item names it by its slot and its revision, once its form is good. -/
theorem names_of_editNames {rev : Nat} (h : e.parse = some p) (hn : editNames e = some (i.val, rev)) :
    p.NamesItem i ∧ p.revision = some (BitVec.ofNat 16 rev) := by
  have hi {j : Slot} (hj : idOf 512 i.val = some j) : some j = some i := hj.symm.trans (idOf_val i)
  cases e with
  | create => cases hn
  | update =>
    cases hn
    obtain ⟨j, q, hj, -, rfl⟩ := Edit.parse_update h
    exact ⟨⟨hi hj, by simp⟩, rfl⟩
  | move =>
    cases hn
    obtain ⟨j, x, hj, -, rfl⟩ := Edit.parse_move h
    exact ⟨⟨hi hj, by simp⟩, rfl⟩
  | retire =>
    cases hn
    obtain ⟨j, hj, rfl⟩ := Edit.parse_retire h
    exact ⟨⟨hi hj, by simp⟩, rfl⟩
  | restore =>
    cases hn
    obtain ⟨j, hj, rfl⟩ := Edit.parse_restore h
    exact ⟨⟨hi hj, by simp⟩, rfl⟩
  | cues =>
    cases hn
    obtain ⟨j, r, hj, -, rfl⟩ := Edit.parse_cues h
    exact ⟨⟨hi hj, by simp⟩, rfl⟩

/-- A RETIRE or a RESTORE as it is parsed. -/
theorem body_of_retire_or_restore {id rev : Nat} (he : e = .retire id rev ∨ e = .restore id rev) (h : e.parse = some p) :
    p.body = .retire ∨ p.body = .restore := by
  rcases he with rfl | rfl
  · obtain ⟨j, -, rfl⟩ := Edit.parse_retire h
    exact .inl rfl
  · obtain ⟨j, -, rfl⟩ := Edit.parse_restore h
    exact .inr rfl

theorem RawBlock.parse_key {b : RawBlock} {f : Fields} (h : b.parse = some f) : f.key = BitVec.ofNat 32 b.key :=
  (RawBlock.parse_given h).key

/-! ### The verdicts on a CREATE (R27) -/

section create

variable {t : Track} {a : Nat} {b : RawBlock} {l : List RawCue}

theorem State.stagedCreate_otherTrack (ho : (s.group g).state = .opened) (h : (Edit.create (trackCode t) a b l).parse = some p)
    (ht : t ≠ (s.group g).track) : s.checkStaged (s.group g) p = some .range := by
  obtain ⟨v, x, f, r, hv, -, -, -, rfl⟩ := Edit.parse_create h
  obtain rfl := trackCode_inj hv
  exact State.checkStaged_create_otherTrack ho ht

theorem State.stagedCreate_anchorBad (ho : (s.group g).state = .opened)
    (h : (Edit.create (trackCode (s.group g).track) a b l).parse = some p) (ha : s.stagedAnchorBad g none a) :
    s.checkStaged (s.group g) p = some .range := by
  obtain ⟨v, x, f, r, hv, hx, -, -, rfl⟩ := Edit.parse_create h
  obtain rfl := trackCode_inj hv
  obtain rfl := anchorCode_of_anchorOf hx
  rw [State.checkStaged_create ho, State.checkStagedPlace_create_range ha, Option.some_or]

theorem State.stagedCreate_keyTaken (ho : (s.group g).state = .opened)
    (h : (Edit.create (trackCode (s.group g).track) a b l).parse = some p) (ha : ¬s.stagedAnchorBad g none a)
    (hk : s.keyTaken b.key none) : s.checkStaged (s.group g) p = some .duplicate := by
  obtain ⟨v, x, f, r, hv, hx, hf, -, rfl⟩ := Edit.parse_create h
  obtain rfl := trackCode_inj hv
  obtain rfl := anchorCode_of_anchorOf hx
  rw [State.keyTaken_iff, ← RawBlock.parse_key hf] at hk
  rw [State.checkStaged_create ho, State.checkStagedPlace_create_duplicate ha hk, Option.some_or]

/-- A CREATE whose track, anchor and key pass is judged by the space alone. -/
theorem State.stagedCreate_space (ho : (s.group g).state = .opened)
    (h : (Edit.create (trackCode (s.group g).track) a b l).parse = some p) (ha : ¬s.stagedAnchorBad g none a)
    (hk : ¬s.keyTaken b.key none) : s.checkStaged (s.group g) p = s.spaceVerdict p.body := by
  obtain ⟨v, x, f, r, hv, hx, hf, -, rfl⟩ := Edit.parse_create h
  obtain rfl := trackCode_inj hv
  obtain rfl := anchorCode_of_anchorOf hx
  rw [← State.keyHeldByOther_free, ← RawBlock.parse_key hf] at hk
  rw [State.checkStaged_create ho, State.checkStagedPlace_create_none ha hk, Option.none_or]

theorem State.stagedCreate_noSpace (h : (Edit.create (trackCode t) a b l).parse = some p)
    (hs : s.freeStaging = 0 ∨ (∀ j, (s.slot j).condition ≠ .free) ∨ s.freeEntries < l.length) :
    s.spaceVerdict p.body = some .noSpace := by
  obtain ⟨v, x, f, r, -, -, -, hr, rfl⟩ := Edit.parse_create h
  rcases hs with hs | hs | hs
  · exact State.spaceVerdict_unstaged hs
  · exact State.spaceVerdict_noSlot (State.lowestFree_none.mpr hs)
  · refine State.spaceVerdict_unlisted ?_
    rw [← parseCues_length hr] at hs
    exact hs

end create

/-! ### The verdicts on an edit whose item passes (R27) -/

theorem State.stagedMove_anchorBad {id rev a : Nat} (h : (Edit.move id rev a).parse = some p) (ha : s.stagedAnchorBad g (some i) a) :
    s.checkStagedPlace (s.group g) (some i) p.body = some .range := by
  obtain ⟨j, x, -, hx, rfl⟩ := Edit.parse_move h
  obtain rfl := anchorCode_of_anchorOf hx
  exact State.checkStagedPlace_move_bad ha

theorem State.stagedMove_placed {id rev a : Nat} (h : (Edit.move id rev a).parse = some p) (ha : ¬s.stagedAnchorBad g (some i) a) :
    s.checkStagedPlace (s.group g) (some i) p.body = none := by
  obtain ⟨j, x, -, hx, rfl⟩ := Edit.parse_move h
  obtain rfl := anchorCode_of_anchorOf hx
  exact State.checkStagedPlace_move_ok ha

theorem State.stagedUpdate_keyTaken {id rev f : Nat} {b : RawBlock} (h : (Edit.update id rev f b).parse = some p)
    (hf : f.testBit 0 = true) (hk : s.keyTaken b.key (some i)) :
    s.checkStagedPlace (s.group g) (some i) p.body = some .duplicate := by
  obtain ⟨j, q, -, hq, rfl⟩ := Edit.parse_update h
  exact State.checkStagedPlace_update_taken hq hf hk

theorem State.stagedUpdate_placed {id rev f : Nat} {b : RawBlock} (h : (Edit.update id rev f b).parse = some p)
    (hk : f.testBit 0 = true → ¬s.keyTaken b.key (some i)) : s.checkStagedPlace (s.group g) (some i) p.body = none := by
  obtain ⟨j, q, -, hq, rfl⟩ := Edit.parse_update h
  exact State.checkStagedPlace_update_free hq hk

theorem State.stagedCues_placed {id rev : Nat} {l : List RawCue} (h : (Edit.cues id rev l).parse = some p) :
    s.checkStagedPlace (s.group g) (some i) p.body = none := by
  obtain ⟨j, r, -, -, rfl⟩ := Edit.parse_cues h
  exact State.checkStagedPlace_cues _ _ _

theorem State.stagedCues_noSpace {id rev : Nat} {l : List RawCue} (h : (Edit.cues id rev l).parse = some p)
    (hs : s.freeStaging = 0 ∨ s.freeEntries < l.length) : s.spaceVerdict p.body = some .noSpace := by
  obtain ⟨j, r, -, hr, rfl⟩ := Edit.parse_cues h
  rcases hs with hs | hs
  · exact State.spaceVerdict_unstaged hs
  · refine State.spaceVerdict_unlisted ?_
    rw [← parseCues_length hr] at hs
    exact hs

/-- An edit of an item passes the checks of its place when its anchor and its key do, and a RETIRE or RESTORE names no reserved slot. -/
theorem State.stagedPlace_passes (h : e.parse = some p) {rev : Nat} (hn : editNames e = some (i.val, rev))
    (hr : i ∉ (s.group g).reserved ∨ ∀ id r, e ≠ .retire id r ∧ e ≠ .restore id r)
    (hm : ∀ id r a, e = .move id r a → ¬s.stagedAnchorBad g (some i) a)
    (hu : ∀ id r f b, e = .update id r f b → f.testBit 0 = true → ¬s.keyTaken b.key (some i)) :
    s.checkStagedPlace (s.group g) (some i) p.body = none := by
  cases e with
  | create => cases hn
  | update id r f b => exact State.stagedUpdate_placed h (hu id r f b rfl)
  | move id r a => exact State.stagedMove_placed h (hm id r a rfl)
  | retire id r =>
    exact State.checkStagedPlace_unreserved (body_of_retire_or_restore (.inl rfl) h) (hr.resolve_right fun hr => (hr id r).1 rfl)
  | restore id r =>
    exact State.checkStagedPlace_unreserved (body_of_retire_or_restore (.inr rfl) h) (hr.resolve_right fun hr => (hr id r).2 rfl)
  | cues id r l => exact State.stagedCues_placed h

/-! ### The staging of an edit that passes (R28) -/

/-- The answer of a staging that leaves the revision of its item. -/
theorem State.stagedReport_eq {w : State} (h : (w.slot i).revision = (s.slot i).revision) : w.stagedReport s g i =
    ⟨g, (s.group g).edits.length, i, (s.slot i).revision, w.freeStaging⟩ := by
  rw [State.stagedReport, h]

theorem exec_stagedEdit_named {rev : Nat} (hp : s.portFree) (h : e.parse = some p) (hn : editNames e = some (i.val, rev))
    (hc : s.checkStaged (s.group g) p = none) :
    ∃ u, exec (.stagedEdit g.val e) s = .next u ∧
      u = { s.answeredWith (writeLengthOf e) (okOr p.clamped)
              (.staged ⟨g, (s.group g).edits.length, i, (s.slot i).revision, u.freeStaging⟩) with groups := u.groups } ∧
      u.group g = { s.group g with
        edits := (s.group g).edits ++ [⟨i, some (BitVec.ofNat 16 rev), p.body⟩]
        reservedEntries := (s.group g).reservedEntries + p.body.newEntries } ∧
      ∀ h, h ≠ g → u.group h = s.group h := by
  obtain ⟨hi, hr⟩ := names_of_editNames h hn
  have hx := exec_stagedEdit_accepted (g := g) hp h hc
  rw [hi.stagedSlot, hi.stage, hr] at hx
  exact ⟨_, hx, rfl, State.setGroup_group_self _ _ _, fun k hk => State.setGroup_group_ne _ _ _ hk⟩

/-- The state in which a CREATE stands staged, but for the answer: a slot's record and a group's written as the request is taken. -/
def State.reserving (s : State) (bytes : Nat) (g : GroupNo) (i : Slot) (x : Item) (y : Group) : State :=
  ((s.select bytes).setSlot i x).setGroup g y

theorem State.reserving_slot_self (s : State) (n : Nat) (g : GroupNo) (i : Slot) (x : Item) (y : Group) :
    (s.reserving n g i x y).slot i = x := State.setSlot_slot_self _ _ _

theorem State.stage_create_select {t : Track} {a : Option Slot} {f : Fields} {l : List CueSpec} {c : Bool} (n : Nat)
    (h : s.lowestFree = some i) : (s.select n).stage g ⟨none, none, .create t a f l, c⟩ =
      s.reserving n g i ((s.slot i).reserve t f l) { s.group g with
        edits := (s.group g).edits ++ [⟨i, none, .create t a f l⟩], reserved := (s.group g).reserved ++ [i]
        reservedEntries := (s.group g).reservedEntries + l.length } := State.stage_create (s := s.select n) h

/-- A CREATE that passes, staged in the lowest free slot. -/
theorem exec_stagedEdit_create {a : Nat} {b : RawBlock} {l : List RawCue} (hp : s.portFree)
    (h : (Edit.create (trackCode (s.group g).track) a b l).parse = some p) (hc : s.checkStaged (s.group g) p = none)
    (hi : s.lowestFree = some i) :
    ∃ u, exec (.stagedEdit g.val (.create (trackCode (s.group g).track) a b l)) s = .next u ∧
      u = { s.answeredWith (writeLengthOf (.create (trackCode (s.group g).track) a b l))
              (okOr (decide (4095 < b.words ∨ 1048575 < b.planned)))
              (.staged ⟨g, (s.group g).edits.length, i, (s.slot i).revision, u.freeStaging⟩) with
            slots := u.slots, groups := u.groups } ∧
      (u.slot i).condition = .staged ∧ (u.slot i).state = .staged ∧ (u.slot i).revision = (s.slot i).revision ∧
      (u.slot i).airing = (s.slot i).airing ∧ (u.slot i).track = (s.group g).track ∧
      (u.slot i).fields.GivenBy {} b (fun _ => true) ∧ List.Forall₂ (fun q c => q.spec.GivenBy c) (u.slot i).cues l ∧
      (∀ j, j ≠ i → u.slot j = s.slot j) ∧
      u.group g = { s.group g with
        edits := (s.group g).edits ++ [⟨i, none, p.body⟩], reserved := (s.group g).reserved ++ [i]
        reservedEntries := (s.group g).reservedEntries + l.length } ∧
      ∀ h, h ≠ g → u.group h = s.group h := by
  have hx := exec_stagedEdit_accepted (g := g) hp h hc
  obtain ⟨v, x, f, r, hv, -, hf, hr, rfl⟩ := Edit.parse_create h
  obtain rfl := trackCode_inj hv
  have hslot : s.stagedSlot ⟨none, none, .create (s.group g).track x f r, b.clamped⟩ = i := by rw [State.stagedSlot, hi]; rfl
  rw [hslot, State.stage_create_select _ hi, parseCues_length hr] at hx
  have hs := s.reserving_slot_self (writeLengthOf (.create (trackCode (s.group g).track) a b l)) g i
    ((s.slot i).reserve (s.group g).track f r) { s.group g with
      edits := (s.group g).edits ++ [⟨i, none, .create (s.group g).track x f r⟩], reserved := (s.group g).reserved ++ [i]
      reservedEntries := (s.group g).reservedEntries + l.length }
  rw [State.stagedReport_eq (by rw [hs]; rfl)] at hx
  refine ⟨_, hx, ?_, (congrArg Item.condition hs :), (congrArg Item.state hs :), (congrArg Item.revision hs :),
    (congrArg Item.airing hs :), (congrArg Item.track hs :), ?_, ?_, fun j hj => State.setSlot_slot_ne _ _ _ hj,
    State.setGroup_group_self _ _ _, fun k hk => State.setGroup_group_ne _ _ _ hk⟩
  · rw [← b.clamped_eq]
    rfl
  · exact (congrArg (fun y : Item => y.fields.GivenBy {} b fun _ => true) hs :).mpr (RawBlock.parse_given hf)
  · exact (congrArg (fun y : Item => List.Forall₂ (fun q c => q.spec.GivenBy c) y.cues l) hs :).mpr
      (List.forall₂_map_left_iff.mpr (parseCues_given hr))

end Sys2Proof.Machine

namespace Sys2Proof

open Sys2Proof.Machine

/-- Settles O20: each check of R27 by the branch of the rule that it is, the request's form taken apart once. -/
theorem stagedEditsAreCheckedInOrder : Obligations.StagedEditsAreCheckedInOrder := by
  intro s g e hp
  refine ⟨fun hf => exec_stagedEdit_malformed hp (Edit.parse_none_iff.mpr hf), fun n h hn => exec_stagedEdit_noGroup hp h hn, ?_, ?_⟩
  · intro hf ho
    obtain ⟨p, h⟩ := Option.ne_none_iff_exists'.mp (mt Edit.parse_none_iff.mp hf)
    exact exec_stagedEdit_refused hp h (State.checkStaged_state ho)
  intro hf ho
  obtain ⟨p, h⟩ := Option.ne_none_iff_exists'.mp (mt Edit.parse_none_iff.mp hf)
  have refused {x : Result} : s.checkStaged (s.group g) p = some x →
      exec (.stagedEdit g.val e) s = .next (s.answeredWith (writeLengthOf e) x .empty) := exec_stagedEdit_refused hp h
  refine ⟨?_, fun i rev hn => ?_⟩
  · rintro t a b l rfl
    refine ⟨fun ht => refused (State.stagedCreate_otherTrack ho h ht), ?_⟩
    rintro rfl
    refine ⟨fun ha => refused (State.stagedCreate_anchorBad ho h ha), fun ha =>
      ⟨fun hk => refused (State.stagedCreate_keyTaken ho h ha hk), fun hk hs => refused ?_⟩⟩
    rw [State.stagedCreate_space ho h ha hk, State.stagedCreate_noSpace h hs]
  · obtain ⟨hi, hr⟩ := names_of_editNames h hn
    refine ⟨fun hm => ⟨fun hl => ?_, fun hl ht => ?_, fun hl ht hv => ?_⟩, fun hpass => ?_⟩
    · exact refused (State.checkStaged_unnamed ho hi hr (State.checkStagedItem_missing hm hl))
    · exact refused (State.checkStaged_unnamed ho hi hr (State.checkStagedItem_otherTrack hm hl ht))
    · exact refused (State.checkStaged_unnamed ho hi hr (State.checkStagedItem_stale hm hl ht hv))
    have hc := State.checkStaged_named ho hi hr hpass
    have atPlace {x : Result} (hx : s.checkStagedPlace (s.group g) (some i) p.body = some x) :
        exec (.stagedEdit g.val e) s = .next (s.answeredWith (writeLengthOf e) x .empty) :=
      refused (by rw [hc, hx, Option.some_or])
    have atSpace {x : Result} (hx : s.checkStagedPlace (s.group g) (some i) p.body = none) (hs : s.spaceVerdict p.body = some x) :
        exec (.stagedEdit g.val e) s = .next (s.answeredWith (writeLengthOf e) x .empty) :=
      refused (by rw [hc, hx, Option.none_or, hs])
    refine ⟨?_, ?_, ?_, ?_, ?_, ?_, ?_⟩
    · rintro id r a rfl ha
      exact atPlace (State.stagedMove_anchorBad h ha)
    · rintro id r a rfl ha hs
      exact atSpace (State.stagedMove_placed h ha) (State.spaceVerdict_unstaged hs)
    · rintro id r f b rfl hb hk
      exact atPlace (State.stagedUpdate_keyTaken h hb hk)
    · rintro id r f b rfl hk hs
      exact atSpace (State.stagedUpdate_placed h hk) (State.spaceVerdict_unstaged hs)
    · intro id r he hm
      exact atPlace (State.checkStagedPlace_reserved (body_of_retire_or_restore he h) hm)
    · intro id r he hm hs
      exact atSpace (State.checkStagedPlace_unreserved (body_of_retire_or_restore he h) hm) (State.spaceVerdict_unstaged hs)
    · rintro id r l rfl hs
      exact atSpace (State.stagedCues_placed h) (State.stagedCues_noSpace h hs)

/-- Settles O21: an edit that every check lets pass is staged, a CREATE in the lowest free slot. -/
theorem stagedEditJoinsItsGroup : Obligations.StagedEditJoinsItsGroup := by
  intro s g e p hp ho h hs he
  refine ⟨?_, fun i rev hn hi hm hu => exec_stagedEdit_named hp h hn ?_⟩
  · rintro a b l i rfl ha hk hfree hlow
    have hi : s.lowestFree = some i := State.lowestFree_eq.mpr ⟨hfree, hlow⟩
    refine exec_stagedEdit_create hp h ?_ hi
    rw [State.stagedCreate_space ho h ha hk]
    exact State.spaceVerdict_fits hs he (.inr (by rw [hi]; rfl))
  · obtain ⟨hN, hr⟩ := names_of_editNames h hn
    have hpass : s.StagedNamed g i (BitVec.ofNat 16 rev) := hi.imp And.left And.right
    have hplace := State.stagedPlace_passes h hn (hi.symm.imp And.left And.right) hm hu
    rw [State.checkStaged_named ho hN hr hpass, hplace, Option.none_or]
    exact State.spaceVerdict_fits hs he (.inl hN.body)

end Sys2Proof
end

section
/-! PROOFS. TRACK.HOLD, TRACK.CONFIG and TRACK.READ (R41 to R43, R77, R155). -/

namespace Sys2Proof.Machine

variable {s : State} {t : Track}

/-! ### The track requests at a free port -/

theorem exec_trackTake (h : s.portFree) (n : Nat) :
    exec (.trackTake n) s = .next ((s.select 2).serveTake n).buffered := exec_atPort rfl nofun h

theorem exec_trackSkip (h : s.portFree) (n : Nat) :
    exec (.trackSkip n) s = .next ((s.select 2).serveSkip n).buffered := exec_atPort rfl nofun h

theorem exec_trackHold (h : s.portFree) (n v : Nat) :
    exec (.trackHold n v) s = .next ((s.select 3).serveHold n v).buffered := exec_atPort rfl nofun h

theorem exec_trackConfig (h : s.portFree) (n fields : Nat) (v : TrackSettings) :
    exec (.trackConfig n fields v) s = .next ((s.select 14).serveTrackConfig n fields v).buffered := exec_atPort rfl nofun h

theorem exec_trackRead (h : s.portFree) (n : Nat) :
    exec (.trackRead n) s = .next ((s.select 2).serveTrackRead n).buffered := exec_atPort rfl nofun h

theorem exec_trackReset (h : s.portFree) (n : Nat) :
    exec (.trackReset n) s = .next ((s.select 2).serveTrackReset n).buffered := exec_atPort rfl nofun h

/-! ### TRACK.HOLD (R42) -/

theorem yesNoOf_of_le {v : Nat} (h : 2 ≤ v) : yesNoOf v = none := by
  match v, h with
  | n + 2, _ => rfl

theorem State.serveHold_range {n v : Nat} (h : 2 ≤ n ∨ 2 ≤ v) : s.serveHold n v = s.refuse .range := by
  unfold State.serveHold
  rcases h with h | h
  · rw [trackOf_of_le h, State.ranged_none]
  · rw [yesNoOf_of_le h]
    cases trackOf n <;> rfl

theorem State.serveHold_sets {v : Nat} {hold : Bool} (h : yesNoOf v = some hold) :
    s.serveHold (trackCode t) v = (s.setTrack t { s.track t with hostHold := hold }).accept false
      (.hold hold (s.panelHold t) (hold || s.panelHold t)) := by
  simp only [State.serveHold, trackOf_code, State.ranged_some, h, State.effectiveHold, State.setTrack_track_self]
  rfl

/-! ### TRACK.CONFIG (R41) -/

/-- The hard-out that a TRACK.CONFIG gives: its presence byte has bit 0 alone. -/
theorem TrackSettings.hardOutOf_eq {v : TrackSettings} (h : v.presence < 2) :
    v.hardOutOf = if v.presence = 1 then some (BitVec.ofNat 32 v.hardOut) else none := by
  have hb : v.presence.testBit 0 = decide (v.presence = 1) := by
    obtain h | h : v.presence = 0 ∨ v.presence = 1 := by omega
    all_goals simp [h]
  simp [TrackSettings.hardOutOf, hb]

/-- A number clamped from above alone. -/
theorem clampTo_zero (hi v : Nat) : clampTo 0 hi v = min v hi := by
  rcases Nat.lt_or_ge hi v with h | h
  · simp [clampTo, h, Nat.min_eq_right (Nat.le_of_lt h)]
  · simp [clampTo, Nat.not_lt.mpr h, Nat.min_eq_left h]

/-- A field set of five fields is defined when it is not empty and holds no sixth bit (R163). -/
theorem badFieldSet_five {fields : Nat} : badFieldSet 5 fields = true ↔ fields = 0 ∨ 32 ≤ fields := by
  simp [badFieldSet]

theorem State.serveTrackConfig_range {n fields : Nat} {v : TrackSettings}
    (h : 2 ≤ n ∨ fields = 0 ∨ 32 ≤ fields ∨ 2 ≤ v.presence) : s.serveTrackConfig n fields v = s.refuse .range := by
  unfold State.serveTrackConfig
  rcases Nat.lt_or_ge n 2 with hn | hn
  · have hbad : (badFieldSet 5 fields || v.presenceBad) = true := by
      rw [Bool.or_eq_true, badFieldSet_five, TrackSettings.presenceBad, decide_eq_true_eq]
      omega
    simp only [hbad, if_true]
    cases trackOf n <;> rfl
  · rw [trackOf_of_le hn, State.ranged_none]

theorem State.serveTrackConfig_sets {fields : Nat} {v : TrackSettings} (h0 : 0 < fields) (h1 : fields < 32) (hv : v.presence < 2) :
    s.serveTrackConfig (trackCode t) fields v =
      ((s.newlySet t ((s.track t).configured fields v)).setTrack t ((s.track t).configured fields v)).accept
        ((s.track t).clamps fields v) (.trackConfig ((s.track t).configured fields v).configuration) := by
  have hgood : (badFieldSet 5 fields || v.presenceBad) = false := by
    rw [Bool.or_eq_false_iff, ← Bool.not_eq_true, badFieldSet_five, TrackSettings.presenceBad, decide_eq_false_iff_not]
    omega
  simp only [State.serveTrackConfig, trackOf_code, State.ranged_some, hgood]
  rfl

/-- The status after a TRACK.CONFIG: at NONE where a hard-out is given that was absent (R41, R77). -/
theorem State.newlySet_setStatus (s : State) (t : Track) (x : TrackRec) : s.newlySet t x =
    s.setStatus t (if (s.track t).hardOut = none ∧ x.hardOut ≠ none then .none else s.statusOf t) := by
  have hc : ((s.track t).hardOut.isNone && x.hardOut.isSome) = true ↔ (s.track t).hardOut = none ∧ x.hardOut ≠ none := by
    simp [Option.isSome_iff_ne_none]
  unfold State.newlySet
  by_cases h : (s.track t).hardOut = none ∧ x.hardOut ≠ none
  · rw [if_pos (hc.mpr h), if_pos h]
  · rw [if_neg (mt hc.mp h), if_neg h]
    exact (congrArg (fun p => { s with status := p }) (PerTrack.set_get s.status t)).symm

/-- A setting of a TRACK.CONFIG stored at its limit (R41). -/
theorem TrackRec.clamps_eq (x : TrackRec) (fields : Nat) (v : TrackSettings) : x.clamps fields v =
    decide ((fields.testBit 0 = true ∧ 15 < v.takeDelay) ∨ (fields.testBit 1 = true ∧ 255 < v.lockout) ∨
      (fields.testBit 2 = true ∧ 65535 < v.band) ∨
      (x.configured fields v).band < if fields.testBit 3 then v.hysteresis else x.hysteresis) := by
  rw [Bool.eq_iff_iff]
  simp only [TrackRec.clamps, outside, Bool.or_eq_true, Bool.and_eq_true, decide_eq_true_eq, Nat.not_lt_zero, false_or, or_assoc]
  rfl

theorem exec_trackConfig_sets (hp : s.portFree) {fields : Nat} {v : TrackSettings} (h0 : 0 < fields) (h1 : fields < 32)
    (hv : v.presence < 2) {x : TrackRec} (hx : x = (s.track t).configured fields v) :
    exec (.trackConfig (trackCode t) fields v) s =
      .next (((s.answeredWith 14
        (okOr (decide ((fields.testBit 0 = true ∧ 15 < v.takeDelay) ∨ (fields.testBit 1 = true ∧ 255 < v.lockout) ∨
          (fields.testBit 2 = true ∧ 65535 < v.band) ∨
          x.band < if fields.testBit 3 then v.hysteresis else (s.track t).hysteresis)))
        (.trackConfig x.configuration)).setTrack t x).setStatus t
        (if (s.track t).hardOut = none ∧ x.hardOut ≠ none then .none else s.statusOf t)) := by
  have hn : (s.select 14).newlySet t x = (s.select 14).setStatus t
      (if (s.track t).hardOut = none ∧ x.hardOut ≠ none then .none else s.statusOf t) := State.newlySet_setStatus _ t x
  rw [exec_trackConfig hp, State.serveTrackConfig_sets h0 h1 hv]
  show Host.Outcome.next ((((s.select 14).newlySet t ((s.track t).configured fields v)).setTrack t
    ((s.track t).configured fields v)).accept ((s.track t).clamps fields v)
      (.trackConfig ((s.track t).configured fields v).configuration)).buffered = _
  rw [TrackRec.clamps_eq, ← hx, hn]
  rfl

/-! ### TRACK.READ (R43) -/

/-- The projection does not depend on what a transaction shifts out. -/
theorem State.select_layOut (s : State) (n : Nat) (next : Frame) (l : List Slot) :
    (s.select n).layOut next l = s.layOut next l := by
  induction l generalizing next with
  | nil => rfl
  | cons i l ih => simp only [State.layOut, ih]; rfl

theorem State.select_overUnder (s : State) (n : Nat) (t : Track) : (s.select n).overUnder t = s.overUnder t := by
  have hp : (s.select n).projection t = s.projection t := by
    unfold State.projection
    simp only [State.select_layOut]
    rfl
  simp only [State.overUnder, State.projectedEnd, hp]
  rfl

theorem exec_trackRead_eq (hp : s.portFree) (t : Track) :
    exec (.trackRead (trackCode t)) s = .next (s.answeredWith 2 .ok (.trackRead (s.trackReport t))) := by
  have hr : (s.select 2).trackReport t = s.trackReport t := by
    rw [State.trackReport, State.select_overUnder]
    rfl
  rw [exec_trackRead hp, State.serveTrackRead, trackOf_code, State.ranged_some, hr]
  rfl

/-- With nothing on air, or the auto field no, there is no auto-take frame (R43). -/
theorem State.autoFrame_none (h : ∀ o, (s.track t).onAir = some o → (s.slot o).fields.auto = false) : s.autoFrame t = none := by
  unfold State.autoFrame
  cases ho : (s.track t).onAir with
  | none => rfl
  | some o => simp [h o ho]

/-- The auto-take frame S + base duration − TD (R51). -/
theorem State.autoFrame_some {o : Slot} {start : Frame} (ho : (s.track t).onAir = some o) (ha : (s.slot o).fields.auto = true)
    (hs : (s.slot o).start = some start) :
    s.autoFrame t = some (frameSub (frameAdd start (s.base (s.slot o))) (s.look t).takeDelay) := by
  simp [State.autoFrame, ho, ha, hs]

theorem State.autoCondition_none (h : s.autoFrame t = none) : s.autoCondition t = .none := by
  rw [State.autoCondition, h]

theorem State.autoCondition_pending {f : Frame} (h : s.autoFrame t = some f) (hr : s.reached f = false) :
    s.autoCondition t = .pending := by
  simp [State.autoCondition, h, hr]

/-- The causes for which an auto-take waits, in their order (R43). -/
theorem State.autoCondition_waits {f : Frame} (h : s.autoFrame t = some f) (hr : s.reached f = true) :
    (s.effectiveHold t = true → s.autoCondition t = .waitingHold) ∧
    (s.effectiveHold t = false →
      (0 < (s.track t).lockoutCount → s.autoCondition t = .waitingLockout) ∧
      ((s.track t).lockoutCount = 0 → (s.track t).ready = none → s.autoCondition t = .waitingReady)) := by
  refine ⟨fun hh => ?_, fun hh => ⟨fun hl => ?_, fun hl hn => ?_⟩⟩
  · simp [State.autoCondition, h, hr, hh]
  · simp [State.autoCondition, h, hr, hh, hl]
  · simp [State.autoCondition, h, hr, hh, hl, hn]

end Sys2Proof.Machine

namespace Sys2Proof

open Sys2Proof.Machine

/-- Settles O27: each request by the branch of its rule. -/
theorem trackRecordIsSetAndRead : Obligations.TrackRecordIsSetAndRead := by
  intro s t hp
  refine ⟨fun v hold h => ?_, fun n v h => ?_, ?_, fun n fields v h => ?_,
    ⟨s.autoCondition t, s.autoFrame t, ?_, fun h => ?_, fun o ho ha => ?_, ?_⟩, fun n h => ?_⟩
  · rw [exec_trackHold hp, State.serveHold_sets h]
    rfl
  · rw [exec_trackHold hp, State.serveHold_range h, State.refuse_buffered]
  · intro fields v x h0 h1 hv htd hl hb hh ho hc hhold hair hr ht
    refine exec_trackConfig_sets hp h0 h1 hv ?_
    cases x
    simp only [TrackRec.configured, TrackRec.lockoutAfter, TrackRec.bandAfter, TrackRec.hysteresisGiven, pick, clampTo_zero,
      TrackSettings.hardOutOf_eq hv, TrackRec.mk.injEq]
    subst hl hb
    exact ⟨htd, rfl, rfl, hh, ho, hhold, hair, hr, hc, ht⟩
  · rw [exec_trackConfig hp, State.serveTrackConfig_range h, State.refuse_buffered]
  · exact exec_trackRead_eq hp t
  · have hf : s.autoFrame t = none := State.autoFrame_none (by simp [h])
    exact ⟨State.autoCondition_none hf, hf⟩
  · have hf : s.autoFrame t = none := State.autoFrame_none fun p hp => by
      rwa [← Option.some.inj (ho.symm.trans hp)]
    exact ⟨State.autoCondition_none hf, hf⟩
  · rintro o start f ho ha hs rfl
    have hf := State.autoFrame_some ho ha hs
    exact ⟨hf, State.autoCondition_pending hf, State.autoCondition_waits hf⟩
  · rw [exec_trackRead hp, State.serveTrackRead, trackOf_of_le h, State.ranged_none, State.refuse_buffered]

end Sys2Proof
end

section
/-! SUPPORT. The response buffer and the prompter's link stand apart: arming, offers and abandonment neither read nor write them, and an
edit, an apply of groups or a take does not read the buffer (R33, R36, R46, R97). -/

namespace Sys2Proof.Machine

variable (s : State) (b : Buffer) (x : Transmit)

/-- The state with another answer in the response buffer, and another prompter link. -/
def State.withPorts : State := { s with buffer := b, prompterTx := x }

/-- The state with another answer in the response buffer. -/
def State.withBuffer : State := { s with buffer := b }

@[simp] theorem State.withPorts_slot (i : Slot) : (s.withPorts b x).slot i = s.slot i := rfl
@[simp] theorem State.withPorts_cue? (i : Slot) (k : Nat) : (s.withPorts b x).cue? i k = s.cue? i k := rfl
@[simp] theorem State.withPorts_channel (c : Chan) : (s.withPorts b x).channel c = s.channel c := rfl
@[simp] theorem State.withPorts_firing : (s.withPorts b x).firing = s.firing := rfl
@[simp] theorem State.withBuffer_slot (i : Slot) : (s.withBuffer b).slot i = s.slot i := rfl
@[simp] theorem State.withBuffer_track (t : Track) : (s.withBuffer b).track t = s.track t := rfl
@[simp] theorem State.withBuffer_group (g : GroupNo) : (s.withBuffer b).group g = s.group g := rfl
@[simp] theorem State.withBuffer_candidates (t : Track) : (s.withBuffer b).candidates t = s.candidates t := rfl

@[simp] theorem State.withPorts_setCueState (i : Slot) (k : Nat) (y : CueState) :
    (s.withPorts b x).setCueState i k y = (s.setCueState i k y).withPorts b x := rfl
@[simp] theorem State.withPorts_setChannel (c : Chan) (y : Channel) :
    (s.withPorts b x).setChannel c y = (s.setChannel c y).withPorts b x := rfl
@[simp] theorem State.withPorts_setFiring (l : List Firing) : (s.withPorts b x).setFiring l = (s.setFiring l).withPorts b x := rfl
@[simp] theorem State.withBuffer_setSlot (i : Slot) (y : Item) :
    (s.withBuffer b).setSlot i y = (s.setSlot i y).withBuffer b := rfl
@[simp] theorem State.withBuffer_setOrder (t : Track) (l : List Slot) :
    (s.withBuffer b).setOrder t l = (s.setOrder t l).withBuffer b := rfl
@[simp] theorem State.withBuffer_order (t : Track) : (s.withBuffer b).order t = s.order t := rfl

theorem State.foldl_withPorts {α : Type} {f : State → α → State}
    (h : ∀ (s : State) a, f (s.withPorts b x) a = (f s a).withPorts b x) (l : List α) :
    l.foldl f (s.withPorts b x) = (l.foldl f s).withPorts b x := List.foldl_hom (fun v : State => v.withPorts b x) h

theorem State.foldl_withBuffer {α : Type} {f : State → α → State} (h : ∀ (s : State) a, f (s.withBuffer b) a = (f s a).withBuffer b)
    (l : List α) : l.foldl f (s.withBuffer b) = (l.foldl f s).withBuffer b := List.foldl_hom (fun v : State => v.withBuffer b) h

/-! ### Channels -/

theorem State.withPorts_emptySlot (c : Chan) (o : CueOutcome) :
    (s.withPorts b x).emptySlot c o = (s.emptySlot c o).withPorts b x := by
  unfold State.emptySlot
  rw [State.withPorts_channel]
  cases (s.channel c).command <;> rfl

theorem State.withPorts_rest (c : Chan) (g : Nat) : (s.withPorts b x).rest c g = (s.rest c g).withPorts b x := by
  unfold State.rest
  split <;> rfl

theorem State.withPorts_grantChain (c : Chan) (n : Nat) :
    State.grantChain c n (s.withPorts b x) = (State.grantChain c n s).withPorts b x := by
  induction n generalizing s with
  | zero => rfl
  | succ n ih =>
    rw [State.grantChain, State.grantChain, State.withPorts_channel]
    split
    · split
      · rfl
      · next q rest _ =>
        have hs : (s.withPorts b x).send c q rest = (s.send c q rest).withPorts b x := rfl
        dsimp only
        split
        · rw [hs, State.withPorts_emptySlot, State.withPorts_rest, ih]
        · exact hs
    · rfl

theorem State.withPorts_grant (c : Chan) : (s.withPorts b x).grant c = (s.grant c).withPorts b x :=
  State.withPorts_grantChain s b x c _

theorem State.withPorts_withdraw (c : Chan) (i : Slot) (k : Nat) :
    (s.withPorts b x).withdraw c i k = (s.withdraw c i k).withPorts b x := by
  simp only [State.withdraw, State.withPorts_channel, State.withPorts_setChannel, State.withPorts_grant]

theorem State.withPorts_offer (e : Firing) : (s.withPorts b x).offer e = (s.offer e).withPorts b x := by
  unfold State.offer
  rw [State.withPorts_cue?]
  split
  · rfl
  · split
    · rfl
    · dsimp only
      rw [State.withPorts_channel]
      split
      · rfl
      · simp only [State.withPorts_setFiring, State.withPorts_setCueState, State.withPorts_channel, State.withPorts_setChannel,
          State.withPorts_grant, State.withPorts_firing, State.withPorts_slot]

/-! ### Arming and abandonment -/

theorem State.withPorts_armCue (ph : Phase) (base : Frame) (i : Slot) (k : Nat) :
    State.armCue ph base i (s.withPorts b x) k = (State.armCue ph base i s k).withPorts b x := by
  have hr (q : Cue) : (s.withPorts b x).resolve q.spec.target q.spec.action ((s.withPorts b x).slot i).track =
    s.resolve q.spec.target q.spec.action (s.slot i).track := rfl
  unfold State.armCue
  rw [State.withPorts_cue?]
  split
  · rfl
  · split
    · rw [hr]
      split <;> rfl
    · rfl

theorem State.withPorts_armPhase (ph : Phase) (base : Frame) (i : Slot) :
    (s.withPorts b x).armPhase ph base i = (s.armPhase ph base i).withPorts b x := by
  unfold State.armPhase
  dsimp only
  rw [State.withPorts_slot, State.foldl_withPorts s b x (fun s k => State.withPorts_armCue s b x ph base i k)]
  exact State.foldl_withPorts _ b x (fun s e => State.withPorts_offer s b x e) _

theorem State.withPorts_abandonCue (i : Slot) (k : Nat) :
    State.abandonCue i (s.withPorts b x) k = (State.abandonCue i s k).withPorts b x := by
  unfold State.abandonCue
  rw [State.withPorts_cue?]
  split
  · rfl
  · split
    · rfl
    · dsimp only
      split
      · rw [State.withPorts_setCueState, State.withPorts_withdraw]
      · rfl
    · rfl

theorem State.withPorts_abandon (i : Slot) (which : Cue → Bool) :
    (s.withPorts b x).abandon i which = (s.abandon i which).withPorts b x :=
  State.foldl_withPorts s b x (fun s k => State.withPorts_abandonCue s b x i k) _

/-- What a cue-level operation leaves has the prompter's link it began with. -/
theorem State.CueLevel.withPorts {s u : State} (h : s.CueLevel u) (b : Buffer) : u.withPorts b s.prompterTx = u.withBuffer b := by
  rw [← h.prompterTx]; rfl

theorem State.withBuffer_armPhase (ph : Phase) (base : Frame) (i : Slot) :
    (s.withBuffer b).armPhase ph base i = (s.armPhase ph base i).withBuffer b :=
  (State.withPorts_armPhase s b s.prompterTx ph base i).trans ((State.cueLevel_armPhase s ph base i).withPorts b)

theorem State.withBuffer_abandon (i : Slot) (which : Cue → Bool) :
    (s.withBuffer b).abandon i which = (s.abandon i which).withBuffer b :=
  (State.withPorts_abandon s b s.prompterTx i which).trans ((State.cueLevel_abandon s i which).withPorts b)

/-! ### READY choices and the stages of a take -/

theorem State.withBuffer_emitScript (script : Option Word32) (f : Word32 → OutFrame) :
    (s.withBuffer b).emitScript script f = (s.emitScript script f).withBuffer b := by
  cases script <;> rfl

theorem State.withBuffer_enterReady (t : Track) (i : Slot) :
    (s.withBuffer b).enterReady t i = (s.enterReady t i).withBuffer b := by
  unfold State.enterReady
  dsimp only
  rw [State.withBuffer_slot, ← State.withBuffer_emitScript, ← State.withBuffer_armPhase]
  rfl

theorem State.withBuffer_unready (t : Track) : (s.withBuffer b).unready t = (s.unready t).withBuffer b := by
  unfold State.unready
  rw [State.withBuffer_track]
  split
  · rfl
  · next r _ =>
    have hp : (if ((s.withBuffer b).slot r).state = .ready then
          (s.withBuffer b).setSlot r { (s.withBuffer b).slot r with state := .planned } else s.withBuffer b) =
        (if (s.slot r).state = .ready then s.setSlot r { s.slot r with state := .planned } else s).withBuffer b := by
      rw [State.withBuffer_slot]
      split <;> rfl
    dsimp only
    rw [hp, State.abandonPhase, State.withBuffer_abandon]
    rfl

theorem State.withBuffer_readyChoice (t : Track) : (s.withBuffer b).readyChoice t = (s.readyChoice t).withBuffer b := by
  unfold State.readyChoice
  dsimp only
  rw [State.withBuffer_candidates, State.withBuffer_track]
  split
  · rfl
  · split
    · exact s.withBuffer_unready b t
    · rw [State.withBuffer_unready, State.withBuffer_enterReady]

theorem State.withBuffer_skipItem (i : Slot) : (s.withBuffer b).skipItem i = (s.skipItem i).withBuffer b := by
  unfold State.skipItem
  dsimp only
  rw [State.withBuffer_slot]
  split
  · rw [State.withBuffer_setSlot, State.abandonPhase, State.withBuffer_abandon]
    rfl
  · rfl

theorem State.withBuffer_takeOutgoing (t : Track) (f : Frame) :
    (s.withBuffer b).takeOutgoing t f = (s.takeOutgoing t f).withBuffer b := by
  unfold State.takeOutgoing
  rw [State.withBuffer_track]
  split
  · rfl
  · next o _ =>
    dsimp only
    simp only [State.withBuffer_slot, State.withBuffer_setSlot, State.abandonPhase, State.withBuffer_abandon,
      State.withBuffer_armPhase]
    rfl

theorem State.withBuffer_takeIncoming (t : Track) (i : Slot) (f : Frame) (l : List Slot) :
    (s.withBuffer b).takeIncoming t i f l = (s.takeIncoming t i f l).withBuffer b := by
  have hl : l.foldl State.skipItem (s.withBuffer b) = (l.foldl State.skipItem s).withBuffer b :=
    State.foldl_withBuffer s b (fun s j => State.withBuffer_skipItem s b j) l
  unfold State.takeIncoming
  dsimp only
  rw [hl, State.withBuffer_slot, ← State.withBuffer_armPhase, ← State.withBuffer_emitScript]
  split
  · rfl
  · rw [← State.withBuffer_emitScript]
    rfl

theorem State.withBuffer_takeClose (t : Track) : (s.withBuffer b).takeClose t = (s.takeClose t).withBuffer b := rfl

/-! ### Edits and groups -/

theorem State.withBuffer_reloadScript (i : Slot) (p : Patch) :
    (s.withBuffer b).reloadScript i p = (s.reloadScript i p).withBuffer b := by
  unfold State.reloadScript
  dsimp only
  split
  · rw [State.withBuffer_slot, State.withBuffer_track]
    split <;> rfl
  · rfl

theorem State.withBuffer_clearReadyOf (t : Track) (i : Slot) :
    (s.withBuffer b).clearReadyOf t i = (s.clearReadyOf t i).withBuffer b := by
  unfold State.clearReadyOf
  rw [State.withBuffer_track]
  split <;> rfl

theorem State.withBuffer_abandonAll (i : Slot) : (s.withBuffer b).abandonAll i = (s.abandonAll i).withBuffer b :=
  s.withBuffer_abandon b i _

theorem State.withBuffer_recueItem (i : Slot) (l : List CueSpec) (c : Bool) :
    (s.withBuffer b).recueItem i l c = (s.recueItem i l c).withBuffer b := by
  unfold State.recueItem
  dsimp only
  rw [State.withBuffer_abandonAll, State.withBuffer_slot]
  generalize s.abandonAll i = v
  have hv : (v.withBuffer b).setSlot i ((v.slot i).recued l c) = (v.setSlot i ((v.slot i).recued l c)).withBuffer b := rfl
  rw [hv, State.withBuffer_track]
  split
  · exact State.withBuffer_armPhase _ b _ _ _
  · rfl

theorem State.withBuffer_carryOut (i : Slot) (c : Bool) (e : EditBody) :
    (s.withBuffer b).carryOut i c e = (s.carryOut i c e).withBuffer b := by
  cases e with
  | create t a f l => rfl
  | update p =>
    show (s.withBuffer b).updateItem i p c = (s.updateItem i p c).withBuffer b
    unfold State.updateItem
    rw [State.withBuffer_reloadScript]
    rfl
  | move a => rfl
  | retire =>
    show (s.withBuffer b).retireItem i = (s.retireItem i).withBuffer b
    unfold State.retireItem
    dsimp only
    simp only [State.withBuffer_abandonAll, State.withBuffer_slot, State.withBuffer_setSlot, State.withBuffer_order,
      State.withBuffer_setOrder, State.withBuffer_clearReadyOf]
  | restore =>
    show (s.withBuffer b).restoreItem i = (s.restoreItem i).withBuffer b
    unfold State.restoreItem
    rw [State.withBuffer_abandonAll]
    rfl
  | cues l => exact s.withBuffer_recueItem b i l c

theorem State.withBuffer_performEdit (i : Slot) (c : Bool) (e : EditBody) :
    (s.withBuffer b).performEdit i c e = (s.performEdit i c e).withBuffer b := s.keepWatch.withBuffer_carryOut b i c e

theorem State.withBuffer_checkEdit (ref : Reference) (i : Slot) (r : Option Word16) (e : EditBody) :
    (s.withBuffer b).checkEdit ref i r e = s.checkEdit ref i r e := by
  cases e <;> rfl

theorem State.withBuffer_runEdits (ref : Reference) (k : Nat) (l : List StagedEdit) :
    State.runEdits ref k l (s.withBuffer b) = (State.runEdits ref k l s).map (fun v => v.withBuffer b) := by
  induction l generalizing s k with
  | nil => rfl
  | cons e l ih =>
    rw [State.runEdits, State.runEdits, State.withBuffer_checkEdit]
    split
    · rfl
    · rw [State.withBuffer_performEdit, ih]

theorem State.withBuffer_freeReserved (l : List Slot) : (s.withBuffer b).freeReserved l = (s.freeReserved l).withBuffer b :=
  State.foldl_withBuffer s b (fun _ _ => rfl) l

theorem State.withBuffer_applyGroup (pre post : Bank 512 Item) (g : GroupNo) :
    State.applyGroup pre post (s.withBuffer b) g = (State.applyGroup pre post s g).withBuffer b := by
  have hr : State.runEdits ((s.withBuffer b).applyReference ((s.withBuffer b).group g) pre post) 0
      ((s.withBuffer b).group g).edits (s.withBuffer b) =
      (State.runEdits (s.applyReference (s.group g) pre post) 0 (s.group g).edits s).map (fun v => v.withBuffer b) :=
    State.withBuffer_runEdits _ _ _ _ _
  unfold State.applyGroup
  rw [hr]
  cases State.runEdits (s.applyReference (s.group g) pre post) 0 (s.group g).edits s with
  | ok v => rfl
  | error e =>
    dsimp only [Except.map]
    rw [State.withBuffer_group, State.withBuffer_freeReserved]
    rfl

theorem State.withBuffer_applyArmed (t : Track) (pre : Bank 512 Item) :
    (s.withBuffer b).applyArmed t pre = (s.applyArmed t pre).withBuffer b :=
  State.foldl_withBuffer s b (fun v g => v.withBuffer_applyGroup b pre s.slots g) _

/-- A take does not depend on the answer that stands in the buffer. -/
theorem State.withBuffer_take (t : Track) (i : Slot) (f : Frame) (l : List Slot) :
    (s.withBuffer b).take t i f l = (s.take t i f l).withBuffer b := by
  unfold State.take
  dsimp only
  rw [State.withBuffer_takeOutgoing, State.withBuffer_takeIncoming, ← State.withBuffer_takeClose, ← State.withBuffer_readyChoice,
    ← State.withBuffer_applyArmed]
  rfl

end Sys2Proof.Machine
end

section
/-! SUPPORT. What a grant, an abandonment and an arming reach: a grant no more than the channels, their links, the completions and cue
states; and, where no READY channel has a cue queued, an arming no more than the cues it arms (R94, R98, R118, R121). -/

namespace Sys2Proof.Machine

/-! ### What a grant reaches -/

/-- Nothing but cue states, channels, the completions of cues and the device links differs. -/
def State.ChannelReach (s u : State) : Prop :=
  u = { s with slots := u.slots, channels := u.channels, cuesDone := u.cuesDone, deviceTx := u.deviceTx }

theorem State.ChannelReach.refl (s : State) : s.ChannelReach s := rfl

theorem State.ChannelReach.trans {s t u : State} (a : s.ChannelReach t) (b : t.ChannelReach u) : s.ChannelReach u := by
  unfold State.ChannelReach at *
  rw [a] at b
  exact b

theorem State.ChannelReach.foldl {α : Type} {f : State → α → State} (h : ∀ (s : State) x, s.ChannelReach (f s x)) (l : List α)
    (s : State) : s.ChannelReach (l.foldl f s) := by
  induction l generalizing s with
  | nil => exact .refl s
  | cons x l ih => exact (h s x).trans (ih _)

theorem State.ChannelReach.flags {s u : State} (h : s.ChannelReach u) : u.flags = s.flags := by rw [h]

theorem State.ChannelReach.due {s u : State} (h : s.ChannelReach u) : u.due = s.due := by rw [h]

theorem State.ChannelReach.sfc {s u : State} (h : s.ChannelReach u) : u.sfc = s.sfc := by rw [h]

theorem State.ChannelReach.firing {s u : State} (h : s.ChannelReach u) : u.firing = s.firing := by rw [h]

theorem State.reach_setChannel (s : State) (c : Chan) (x : Channel) : s.ChannelReach (s.setChannel c x) := rfl

theorem State.reach_emptySlot (s : State) (c : Chan) (o : CueOutcome) : s.ChannelReach (s.emptySlot c o) := by
  unfold State.emptySlot
  split <;> rfl

theorem State.reach_rest (s : State) (c : Chan) (g : Nat) : s.ChannelReach (s.rest c g) := by
  unfold State.rest
  split <;> rfl

theorem State.reach_send (s : State) (c : Chan) (q : Queued) (rest : List Queued) : s.ChannelReach (s.send c q rest) := rfl

theorem State.reach_grantChain (c : Chan) (n : Nat) (s : State) : s.ChannelReach (State.grantChain c n s) := by
  induction n generalizing s with
  | zero => exact .refl s
  | succ n ih =>
    rw [State.grantChain]
    split
    · split
      · exact .refl s
      · next q rest _ =>
        dsimp only
        split
        · exact (((s.reach_send c q rest).trans (State.reach_emptySlot _ c .done)).trans (State.reach_rest _ c q.guard)).trans (ih _)
        · exact s.reach_send c q rest
    · exact .refl s

theorem State.reach_grant (s : State) (c : Chan) : s.ChannelReach (s.grant c) := State.reach_grantChain c _ s

theorem State.reach_withdraw (s : State) (c : Chan) (i : Slot) (k : Nat) : s.ChannelReach (s.withdraw c i k) :=
  (s.reach_setChannel c _).trans (State.reach_grant _ c)

/-! ### The event flags that arming and abandonment leave -/

theorem State.abandonCue_flags (i : Slot) (s : State) (k : Nat) : (State.abandonCue i s k).flags = s.flags := by
  unfold State.abandonCue
  split
  · rfl
  · split
    · rfl
    · dsimp only
      split
      · exact (State.reach_withdraw _ _ i k).flags
      · rfl
    · rfl

/-- An abandonment raises no event (R100). -/
theorem State.abandon_flags (s : State) (i : Slot) (which : Cue → Bool) : (s.abandon i which).flags = s.flags := by
  unfold State.abandon
  generalize (List.range (s.slot i).cues.length).filter _ = l
  induction l generalizing s with
  | nil => rfl
  | cons k l ih => rw [List.foldl_cons, ih, State.abandonCue_flags]

/-- A cue that fails raises CUE_FAIL alone (R93). -/
theorem State.failCue_flags {e : Event} (h : e ≠ .cueFail) (s : State) (i : Slot) (k : Nat) (cause : FailCause) :
    (s.failCue i k cause).flags.get e = s.flags.get e := EventSet.get_put_ne _ h

theorem State.offer_flags {e : Event} (h : e ≠ .cueFail) (s : State) (x : Firing) : (s.offer x).flags.get e = s.flags.get e := by
  unfold State.offer
  split
  · rfl
  · split
    · rfl
    · dsimp only
      split
      · exact State.failCue_flags h _ _ _ _
      · rw [(State.reach_grant _ _).flags]
        rfl

theorem State.armCue_flags {e : Event} (h : e ≠ .cueFail) (ph : Phase) (base : Frame) (i : Slot) (s : State) (k : Nat) :
    (State.armCue ph base i s k).flags.get e = s.flags.get e := by
  unfold State.armCue
  split
  · rfl
  · split
    · split
      · exact State.failCue_flags h s i k .unrouted
      · rfl
    · rfl

theorem State.foldl_flags {α : Type} {e : Event} {f : State → α → State} (h : ∀ (s : State) x, (f s x).flags.get e = s.flags.get e)
    (l : List α) (s : State) : (l.foldl f s).flags.get e = s.flags.get e := by
  induction l generalizing s with
  | nil => rfl
  | cons x l ih => rw [List.foldl_cons, ih, h]

/-- An arming raises CUE_FAIL at most (R93, R94). -/
theorem State.armPhase_flags {e : Event} (h : e ≠ .cueFail) (s : State) (ph : Phase) (base : Frame) (i : Slot) :
    (s.armPhase ph base i).flags.get e = s.flags.get e := by
  unfold State.armPhase
  dsimp only
  rw [State.foldl_flags (State.offer_flags h), State.foldl_flags (State.armCue_flags h ph base i)]

/-! ### A grant leaves no READY channel with a cue queued -/

/-- The arbiter goes on until its channel is not READY or has nothing queued (R121). -/
theorem State.grantChain_idle (c : Chan) (n : Nat) (s : State) (hn : (s.channel c).queue.length ≤ n) :
    ((State.grantChain c n s).channel c).state = .ready → ((State.grantChain c n s).channel c).queue = [] := by
  induction n generalizing s with
  | zero => exact fun _ => List.length_eq_zero_iff.mp (Nat.le_zero.mp hn)
  | succ n ih =>
    rw [State.grantChain]
    split
    · split
      · next hq => exact fun _ => hq
      · next q rest hq =>
        dsimp only
        split
        · refine ih _ ?_
          have hr : (((s.send c q rest).emptySlot c .done).rest c q.guard).channel c =
              (if q.guard = 0 then _ else _) := State.rest_channel_self _ c q.guard
          have hl : (((((s.send c q rest).emptySlot c .done).rest c q.guard).channel c).queue).length = rest.length := by
            rw [hr]
            split <;> simp
          rw [hq, List.length_cons] at hn
          omega
        · simp
    · next h => exact fun hr => absurd hr h

theorem State.grant_queuesIdle {s : State} {c : Chan} (h : ∀ d, d ≠ c → (s.channel d).state = .ready → (s.channel d).queue = []) :
    (s.grant c).QueuesIdle := by
  intro d
  by_cases e : d = c
  · subst e
    exact State.grantChain_idle d _ s (Nat.le_refl _)
  · rw [(State.onChannel_grant s c).others d e]
    exact h d e

/-! ### What an arming reaches -/

/-- Of the items only the cues of item `i` that `p` picks, and its cue fault, may have changed; of the firing list and the wait queues only
entries of that item have joined; and no READY channel has come to have a cue queued. -/
structure State.Confined (i : Slot) (p : Nat → Prop) (s u : State) : Prop where
  others : ∀ j, j ≠ i → u.slot j = s.slot j
  cues : ∀ k, ¬p k → u.cue? i k = s.cue? i k
  firing : ∀ e ∈ u.firing, e ∈ s.firing ∨ e.slot = i ∧ p e.index
  queues : ∀ c, ∀ x ∈ (u.channel c).queue, x ∈ (s.channel c).queue ∨ x.cue.slot = i
  idle : u.QueuesIdle

variable {s t u : State} {i : Slot} {p : Nat → Prop}

theorem State.Confined.refl (h : s.QueuesIdle) : State.Confined i p s s :=
  ⟨fun _ _ => rfl, fun _ _ => rfl, fun _ h => .inl h, fun _ _ h => .inl h, h⟩

theorem State.Confined.trans (a : State.Confined i p s t) (b : State.Confined i p t u) : State.Confined i p s u where
  others := fun j hj => (b.others j hj).trans (a.others j hj)
  cues := fun k hk => (b.cues k hk).trans (a.cues k hk)
  firing := fun e he => (b.firing e he).elim (a.firing e) .inr
  queues := fun c x hx => (b.queues c x hx).elim (a.queues c x) .inr
  idle := b.idle

/-- One cue of the item changed, the channels left, and the firing list joined by that cue's entry at most. -/
theorem State.confined_setSlot {k : Nat} {y : Item} (h : s.QueuesIdle) (hp : p k) (hs : u.slots = s.slots.set i y)
    (hk : ∀ n, n ≠ k → y.cues[n]? = s.cue? i n) (hf : ∀ e ∈ u.firing, e ∈ s.firing ∨ e.slot = i ∧ e.index = k)
    (hc : u.channels = s.channels) : State.Confined i p s u where
  others := fun j hj => by rw [State.slot, hs]; exact Bank.get_set_ne _ _ hj
  cues := fun n hn => by
    have hi : u.slot i = y := by rw [State.slot, hs]; exact Bank.get_set_self _ _ _
    rw [State.cue?, hi]
    exact hk n fun e => hn (e ▸ hp)
  firing := fun e he => (hf e he).imp_right fun ⟨hi, hk⟩ => ⟨hi, by rw [hk]; exact hp⟩
  queues := fun c x hx => by rw [State.channel, hc] at hx; exact .inl hx
  idle := fun c hr => by rw [State.channel, hc] at hr ⊢; exact h c hr

theorem State.confined_modifyCue {k : Nat} (h : s.QueuesIdle) (hp : p k) (f : Cue → Cue) :
    State.Confined i p s (s.modifyCue i k f) :=
  State.confined_setSlot h hp rfl (fun _ hn => List.getElem?_modify_ne f _ (Ne.symm hn)) (fun _ he => .inl he) rfl

theorem State.confined_failCue {k : Nat} (h : s.QueuesIdle) (hp : p k) (cause : FailCause) :
    State.Confined i p s (s.failCue i k cause) := by
  have h1 : State.Confined i p s (s.modifyCue i k (fun q => { q with state := .failed, failCause := some cause })) :=
    State.confined_modifyCue h hp _
  refine h1.trans (State.confined_setSlot h1.idle hp (y := { (s.modifyCue i k _).slot i with cueFault := true }) rfl
    (fun _ _ => rfl) (fun _ he => .inl he) rfl)

theorem mem_removeFiring {i : Slot} {k : Nat} {l : List Firing} {e : Firing} (h : e ∈ removeFiring i k l) : e ∈ l :=
  (List.mem_filter.mp h).1

theorem mem_insertFiring {x e : Firing} {l : List Firing} : e ∈ insertFiring x l ↔ e = x ∨ e ∈ l := by
  induction l with
  | nil => simp [insertFiring]
  | cons y l ih =>
    rw [insertFiring]
    split
    · simp
    · rw [List.mem_cons, ih, List.mem_cons]
      tauto

theorem mem_enqueue {q x : Queued} {l : List Queued} : x ∈ enqueue q l ↔ x = q ∨ x ∈ l := by
  induction l with
  | nil => simp [enqueue]
  | cons y l ih =>
    rw [enqueue]
    split
    · simp
    · rw [List.mem_cons, ih, List.mem_cons]
      tauto

/-- One cue of an arming: that cue of the item, if it arms at all (R94). -/
theorem State.confined_armCue {ph : Phase} {base : Frame} {k : Nat} (h : s.QueuesIdle)
    (hp : ∀ q, s.cue? i k = some q → q.arms ph = true → p k) : State.Confined i p s (State.armCue ph base i s k) := by
  unfold State.armCue
  split
  · exact .refl h
  · next q hq =>
    split
    · next ha =>
      have hpk := hp q hq ha
      split
      · exact State.confined_failCue h hpk _
      · refine State.confined_setSlot h hpk rfl (fun _ hn => List.getElem?_modify_ne _ _ (Ne.symm hn)) (fun e he => ?_) rfl
        rcases mem_insertFiring.mp he with rfl | he
        · exact .inr ⟨rfl, rfl⟩
        · exact .inl he
    · exact .refl h

theorem State.confined_armCues {ph : Phase} {base : Frame} {l : List Nat} {v : State}
    (hp : ∀ k q, s.cue? i k = some q → q.arms ph = true → p k) (h : State.Confined i p s v) :
    State.Confined i p s (l.foldl (State.armCue ph base i) v) := by
  induction l generalizing v with
  | nil => exact h
  | cons k l ih =>
    refine ih (h.trans (State.confined_armCue h.idle fun q hq ha => ?_))
    by_contra hk
    rw [h.cues k hk] at hq
    exact hk (hp k q hq ha)

/-- The grant that follows an accepted offer sends that cue, or none (R118, R121). -/
theorem State.confined_grantOffered {c : Chan} {q : Queued} (h : s.QueuesIdle) (hi : q.cue.slot = i) (hp : p q.cue.index) :
    State.Confined i p s ((s.setChannel c { s.channel c with queue := enqueue q (s.channel c).queue }).grant c) := by
  generalize hv : s.setChannel c { s.channel c with queue := enqueue q (s.channel c).queue } = v
  have hvc : v.channel c = { s.channel c with queue := enqueue q (s.channel c).queue } := by
    rw [← hv]; exact State.setChannel_channel_self _ _ _
  have hvd : ∀ d, d ≠ c → v.channel d = s.channel d := fun d hd => by
    rw [← hv]; exact State.setChannel_channel_ne _ _ _ hd
  have hidle : (v.grant c).QueuesIdle := State.grant_queuesIdle fun d hd => by rw [hvd d hd]; exact h d
  have hsub (w : State) (hw : ∀ d, d ≠ c → w.channel d = v.channel d) (hq : ∀ x ∈ (w.channel c).queue, x ∈ (v.channel c).queue) :
      ∀ d, ∀ x ∈ (w.channel d).queue, x ∈ (s.channel d).queue ∨ x.cue.slot = i := by
    intro d x hx
    by_cases e : d = c
    · subst e
      have := hq x hx
      rw [hvc] at this
      rcases mem_enqueue.mp this with rfl | h
      · exact .inr hi
      · exact .inl h
    · rw [hw d e, hvd d e] at hx
      exact .inl hx
  by_cases hr : (s.channel c).state = .ready
  · have hq : (v.channel c).queue = [q] := by rw [hvc, h c hr]; rfl
    have hg : v.grant c = if q.doneAtSend then ((v.send c q []).emptySlot c .done).rest c q.guard else v.send c q [] := by
      rw [State.grant, hq]
      show State.grantChain c 1 v = _
      rw [State.grantChain, if_pos (by rw [hvc]; exact hr), hq]
      rfl
    have hs : (v.grant c).slots = (v.setCueState q.cue.slot q.cue.index .sent).slots := by
      rw [hg]
      split
      · unfold State.rest State.emptySlot
        split <;> split <;> rfl
      · rfl
    have hf : (v.grant c).firing = s.firing := by
      rw [(State.reach_grant v c).firing, ← hv]; rfl
    have hvs : ∀ j, v.slot j = s.slot j := fun j => by rw [← hv]; rfl
    have h1 : State.Confined i p s (s.setCueState i q.cue.index .sent) := State.confined_modifyCue h hp _
    have hgs : ∀ j, (v.grant c).slot j = (s.setCueState i q.cue.index .sent).slot j := fun j => by
      have : (v.grant c).slot j = (v.setCueState q.cue.slot q.cue.index .sent).slot j := by rw [State.slot, hs]; rfl
      rw [this, hi, ← hv]
      rfl
    refine ⟨fun j hj => (hgs j).trans (h1.others j hj), fun k hk => ?_, fun e he => .inl (hf ▸ he), hsub _
      (State.onChannel_grant v c).others fun x hx => ?_, hidle⟩
    · rw [State.cue?, hgs]
      exact h1.cues k hk
    · have hnil : ((v.grant c).channel c).queue = [] := by
        rw [hg]
        split
        · rw [State.rest_channel_self]
          split <;> simp
        · simp
      rw [hnil] at hx
      cases hx
  · have hg : v.grant c = v := State.grant_idle fun h => absurd (by rw [hvc] at h; exact h) hr
    rw [hg] at hidle ⊢
    refine ⟨fun j _ => by rw [← hv]; rfl, fun k _ => by rw [← hv]; rfl, fun e he => .inl ?_, hsub v (fun _ _ => rfl) fun _ h => h, hidle⟩
    rw [← hv] at he
    exact he

/-- An offer reaches the cue that it offers (R98, R99, R119). -/
theorem State.confined_offer {e : Firing} (h : s.QueuesIdle) (hi : e.slot = i) (hp : p e.index) :
    State.Confined i p s (s.offer e) := by
  have h0 : State.Confined i p s (s.setFiring (removeFiring e.slot e.index s.firing)) :=
    ⟨fun _ _ => rfl, fun _ _ => rfl, fun _ he => .inl (mem_removeFiring he), fun _ _ hx => .inl hx, h⟩
  unfold State.offer
  split
  · exact h0
  · split
    · exact h0
    · dsimp only
      split
      · rw [hi] at h0 ⊢
        exact h0.trans (State.confined_failCue h0.idle hp _)
      · rw [hi] at h0 ⊢
        have h1 := h0.trans (State.confined_modifyCue h0.idle hp (fun q => { q with state := .queued }))
        exact h1.trans (State.confined_grantOffered h1.idle rfl hp)

theorem State.confined_offers {l : List Firing} (h : s.QueuesIdle) (hl : ∀ e ∈ l, e.slot = i ∧ p e.index) :
    State.Confined i p s (l.foldl State.offer s) := by
  induction l generalizing s with
  | nil => exact .refl h
  | cons e l ih =>
    obtain ⟨hi, hp⟩ := hl e (by simp)
    have h1 := State.confined_offer h hi hp
    exact h1.trans (ih h1.idle fun d hd => hl d (List.mem_cons_of_mem e hd))

/-- An arming reaches the cues of the item that it arms (R94, R98). -/
theorem State.confined_armPhase (h : s.QueuesIdle) (ph : Phase) (base : Frame) (i : Slot) :
    State.Confined i (fun k => ∃ q, s.cue? i k = some q ∧ q.arms ph = true) s (s.armPhase ph base i) := by
  unfold State.armPhase
  dsimp only
  generalize hv : (List.range (s.slot i).cues.length).foldl (State.armCue ph base i) s = v
  have h1 : State.Confined i (fun k => ∃ q, s.cue? i k = some q ∧ q.arms ph = true) s v := by
    rw [← hv]
    exact State.confined_armCues (fun k q hq ha => ⟨q, hq, ha⟩) (.refl h)
  refine h1.trans (State.confined_offers h1.idle fun e he => ?_)
  obtain ⟨he, hn⟩ := List.mem_filter.mp he
  refine (h1.firing e he).resolve_left fun hs => ?_
  simp [hs] at hn

/-! ### Abandonment -/

theorem State.Abandoned.queuesIdle {which : Cue → Bool} (h : s.Abandoned u i which) (hs : s.QueuesIdle) : u.QueuesIdle := by
  intro c hc
  rw [h.queues c] at hc ⊢
  simp [hs c hc]

/-- An abandonment that selects no cue changes nothing. -/
theorem State.abandon_none {which : Cue → Bool} (h : ∀ q, which q = false) (s : State) (i : Slot) : s.abandon i which = s := by
  have hl : (List.range (s.slot i).cues.length).filter (fun k => (((s.slot i).cues[k]?).map which).getD false) = [] := by
    refine List.filter_eq_nil_iff.mpr fun k _ => ?_
    cases (s.slot i).cues[k]? <;> simp [h]
  rw [State.abandon, hl]
  rfl

end Sys2Proof.Machine
end

section
/-! SUPPORT. The READY choice: what it makes of the pointer, the states and the airings, and what it does where no item stands READY (R44,
R45). -/

namespace Sys2Proof.Machine

variable {s u v : State} {t : Track} {i j : Slot}

/-! ### The pointer after a READY choice -/

theorem State.ChoiceLevel.afterOnAir (h : State.ChoiceLevel t s u) : u.afterOnAir t = s.afterOnAir t := by
  have ho : (u.track t).onAir = (s.track t).onAir := by rw [h.ownTrack]
  simp only [State.afterOnAir, ho, State.order, h.orders]

/-- A candidate stands after the item on air, is not floated, and is PLANNED or the track's READY item (R10, R44). -/
theorem State.isCandidate_iff : s.isCandidate t i = true ↔
    (s.slot i).fields.floated = false ∧ ((s.slot i).state = .planned ∨ (s.track t).ready = some i) := by
  simp [State.isCandidate]

theorem State.emitScript_track (s : State) (x : Option Word32) (f : Word32 → OutFrame) (v : Track) :
    (s.emitScript x f).track v = s.track v := by
  cases x <;> rfl

theorem State.enterReady_ready (s : State) (t : Track) (i : Slot) : ((s.enterReady t i).track t).ready = some i := by
  rw [State.enterReady, State.emitScript_track, (State.cueLevel_armPhase _ .ready _ i).track, State.setTrack_track_self]

theorem State.enterReady_state (s : State) (t : Track) (i j : Slot) :
    ((s.enterReady t i).slot j).state = if j = i then .ready else (s.slot j).state := by
  rw [State.enterReady, State.emitScript_slot, ((State.cueLevel_armPhase _ .ready _ i).items j).state, State.setTrack_slot,
    State.setSlot_slot]
  split <;> rfl

theorem State.enterReady_airing_self (s : State) (t : Track) (i : Slot) :
    ((s.enterReady t i).slot i).airing = nextAiring (s.slot i).airing := by
  rw [State.enterReady, State.emitScript_slot, ((State.cueLevel_armPhase _ .ready _ i).items i).airing, State.setTrack_slot,
    State.setSlot_slot_self]
  rfl

theorem State.unready_none (h : (s.track t).ready = none) : s.unready t = s := by
  rw [State.unready, h]

theorem State.unready_ready (s : State) (t : Track) : ((s.unready t).track t).ready = none := by
  unfold State.unready
  split
  · next h => exact h
  · rw [State.setTrack_track_self]

/-- An item that leaves READY by the choice is PLANNED, and every other keeps its state. -/
theorem State.unready_state (s : State) (t : Track) (j : Slot) : ((s.unready t).slot j).state =
    if (s.track t).ready = some j ∧ (s.slot j).state = .ready then .planned else (s.slot j).state := by
  unfold State.unready
  split
  · next h => simp [h]
  · next r h =>
    rw [State.setTrack_slot, ((State.cueLevel_abandonPhase _ r .ready).items j).state]
    by_cases hj : j = r
    · subst hj
      by_cases hs : (s.slot j).state = .ready <;> simp [h, hs]
    · have hn : ¬some r = some j := fun e => hj (Option.some.inj e).symm
      rw [h, if_neg (fun e : some r = some j ∧ (s.slot j).state = .ready => hn e.1)]
      by_cases hs : (s.slot r).state = .ready
      · rw [if_pos hs, State.setSlot_slot_ne _ _ _ hj]
      · rw [if_neg hs]

/-- Without its READY item, a track has no candidate that it had not. -/
theorem State.unready_isCandidate (h : (s.unready t).isCandidate t j = true) : s.isCandidate t j = true := by
  obtain ⟨hf, hp⟩ := State.isCandidate_iff.mp h
  refine State.isCandidate_iff.mpr ⟨((State.choice_unready s t).items j).fields ▸ hf, ?_⟩
  rw [State.unready_ready, State.unready_state] at hp
  rcases hp with hp | hp
  · split at hp
    · next hr => exact .inr hr.1
    · exact .inl hp
  · cases hp

/-- The first to pass a test passes first a narrower test that it meets. -/
theorem find?_narrow {α : Type} {p q : α → Bool} {l : List α} {a : α} (h : l.find? p = some a) (ha : q a = true)
    (hq : ∀ b, q b = true → p b = true) : l.find? q = some a := by
  obtain ⟨-, before, after, rfl, hb⟩ := List.find?_eq_some_iff_append.mp h
  refine List.find?_eq_some_iff_append.mpr ⟨ha, before, after, rfl, fun b hm => ?_⟩
  have := hb b hm
  simp only [Bool.not_eq_true'] at this ⊢
  exact Bool.eq_false_iff.mpr fun e => by rw [hq b e] at this; cases this

theorem State.candidates_head (s : State) (t : Track) : (s.candidates t).head? = (s.afterOnAir t).find? (s.isCandidate t) :=
  List.head?_filter

theorem State.readyChoice_same (h : (s.candidates t).head? = (s.track t).ready) : s.readyChoice t = s := by
  simp only [State.readyChoice, h, if_true]

theorem State.readyChoice_leaves (h : (s.candidates t).head? = none) (hr : (s.track t).ready ≠ none) :
    s.readyChoice t = s.unready t := by
  simp only [State.readyChoice, h, if_neg (Ne.symm hr)]

theorem State.readyChoice_enters (h : (s.candidates t).head? = some i) (hr : (s.track t).ready ≠ some i) :
    s.readyChoice t = (s.unready t).enterReady t i := by
  simp only [State.readyChoice, h, if_neg (Ne.symm hr)]

/-- The READY pointer names the first candidate after the choice (R44). -/
theorem State.readyChoice_head (s : State) (t : Track) :
    ((s.readyChoice t).track t).ready = ((s.readyChoice t).candidates t).head? := by
  have hafter := (State.choice_readyChoice s t).afterOnAir
  rw [State.candidates_head, hafter]
  by_cases hsame : (s.candidates t).head? = (s.track t).ready
  · rw [State.readyChoice_same hsame, ← State.candidates_head, hsame]
  · cases hc : (s.candidates t).head? with
    | none =>
      rw [State.readyChoice_leaves hc fun e => hsame (hc.trans e.symm), State.unready_ready]
      rw [State.candidates_head, List.find?_eq_none] at hc
      exact (List.find?_eq_none.mpr fun j hj h => hc j hj (State.unready_isCandidate h)).symm
    | some i =>
      rw [State.readyChoice_enters hc fun e => hsame (hc.trans e.symm), State.enterReady_ready]
      rw [State.candidates_head] at hc
      have hi := State.isCandidate_iff.mp (List.find?_some hc)
      have hfields (j : Slot) : (((s.unready t).enterReady t i).slot j).fields = (s.slot j).fields :=
        (((State.choice_unready s t).trans (State.choice_enterReady _ t i)).items j).fields
      refine (find?_narrow hc ?_ fun j hj => ?_).symm
      · rw [State.isCandidate_iff, hfields, State.enterReady_ready]
        exact ⟨hi.1, .inr rfl⟩
      · by_cases e : j = i
        · subst e; exact List.find?_some hc
        · rw [State.isCandidate_iff, hfields, State.enterReady_state, if_neg e, State.enterReady_ready] at hj
          obtain ⟨hf, hp⟩ := hj
          refine State.unready_isCandidate (State.isCandidate_iff.mpr ⟨?_, .inl (hp.resolve_right fun h => e (Option.some.inj h).symm)⟩)
          rw [((State.choice_unready s t).items j).fields]
          exact hf

/-! ### A choice with no READY item standing -/

theorem State.readyChoice_none (h : (s.track t).ready = none) (hc : (s.candidates t).head? = none) : s.readyChoice t = s :=
  State.readyChoice_same (hc.trans h.symm)

theorem State.readyChoice_some (h : (s.track t).ready = none) (hc : (s.candidates t).head? = some i) :
    s.readyChoice t = s.enterReady t i := by
  rw [State.readyChoice_enters hc (by rw [h]; nofun), State.unready_none h]

/-- Where no item stood READY, the item the choice makes READY is the first candidate it found (R44). -/
theorem State.readyChoice_chosen (h : (s.track t).ready = none) : ((s.readyChoice t).track t).ready = (s.candidates t).head? := by
  cases hc : (s.candidates t).head? with
  | none => rw [State.readyChoice_none h hc, h]
  | some i => rw [State.readyChoice_some h hc, State.enterReady_ready]

theorem State.mem_candidates : i ∈ s.candidates t ↔ i ∈ s.afterOnAir t ∧ s.isCandidate t i = true := List.mem_filter

/-- With no READY item standing the candidates are PLANNED. -/
theorem State.candidate_planned (h : (s.track t).ready = none) (hi : i ∈ s.candidates t) : (s.slot i).state = .planned := by
  obtain ⟨-, hc⟩ := State.mem_candidates.mp hi
  obtain ⟨-, hp⟩ := State.isCandidate_iff.mp hc
  exact hp.resolve_right (by rw [h]; nofun)

/-- The choice leaves the state of an item that it does not choose. -/
theorem State.readyChoice_state_ne (h : (s.track t).ready = none) (hj : ((s.readyChoice t).track t).ready ≠ some j) :
    ((s.readyChoice t).slot j).state = (s.slot j).state := by
  rw [State.readyChoice_chosen h] at hj
  cases hc : (s.candidates t).head? with
  | none => rw [State.readyChoice_none h hc]
  | some i =>
    rw [State.readyChoice_some h hc, State.enterReady_state, if_neg]
    rintro rfl
    exact hj hc

theorem State.readyChoice_airing_ne (h : (s.track t).ready = none) (hj : ((s.readyChoice t).track t).ready ≠ some j) :
    ((s.readyChoice t).slot j).airing = (s.slot j).airing := by
  rw [State.readyChoice_chosen h] at hj
  cases hc : (s.candidates t).head? with
  | none => rw [State.readyChoice_none h hc]
  | some i =>
    rw [State.readyChoice_some h hc, State.enterReady_airing_ne]
    rintro rfl
    exact hj hc

/-- The item chosen is READY, with its airing advanced (R45). -/
theorem State.readyChoice_chosen_item (h : (s.track t).ready = none) (hj : ((s.readyChoice t).track t).ready = some j) :
    ((s.readyChoice t).slot j).state = .ready ∧ ((s.readyChoice t).slot j).airing = nextAiring (s.slot j).airing := by
  rw [State.readyChoice_chosen h] at hj
  rw [State.readyChoice_some h hj, State.enterReady_state, if_pos rfl, State.enterReady_airing_self]
  exact ⟨rfl, rfl⟩

/-- An item that is not PLANNED is not chosen. -/
theorem State.readyChoice_notChosen (h : (s.track t).ready = none) (hj : (s.slot j).state ≠ .planned) :
    ((s.readyChoice t).track t).ready ≠ some j := by
  rw [State.readyChoice_chosen h]
  exact fun e => hj (State.candidate_planned h (List.mem_of_mem_head? e))

end Sys2Proof.Machine
end

section
/-! PROOFS. The skip of the READY item (R54, with R5, R45 and R101). -/

namespace Sys2Proof.Machine

variable {s u v : State} {t : Track} {i j : Slot}

/-- The record of an item that becomes SKIPPED (R5, R54). -/
def Item.skipped (x : Item) : Item := { x with revision := nextRevision x.revision, state := .skipped }

theorem State.cueLevel_skipItem (s : State) (i : Slot) : (s.setSlot i (s.slot i).skipped).CueLevel (s.skipItem i) := by
  unfold State.skipItem
  dsimp only
  split
  · exact State.cueLevel_abandonPhase (s.setSlot i (s.slot i).skipped) i .ready
  · exact .refl _

theorem State.skipItem_kept_self (s : State) (i : Slot) : (s.slot i).skipped.Kept ((s.skipItem i).slot i) := by
  have h := (s.cueLevel_skipItem i).items i
  rwa [State.setSlot_slot_self] at h

theorem State.skipItem_kept_ne (s : State) (h : j ≠ i) : (s.slot j).Kept ((s.skipItem i).slot j) := by
  have k := (s.cueLevel_skipItem i).items j
  rwa [State.setSlot_slot_ne _ _ _ h] at k

/-- A skipped item's cues of the READY phase that wait are abandoned, if it stood READY (R45, R101). -/
theorem State.skips_skipItem (hs : s.QueuesIdle) (i : Slot) : s.Skips (s.skipItem i) i := by
  have h := State.abandoned_abandon (s := s.setSlot i (s.slot i).skipped) hs i
    (fun q => decide ((s.slot i).state = .ready) && decide (q.spec.phase = .ready))
  have he : (s.setSlot i (s.slot i).skipped).abandon i
      (fun q => decide ((s.slot i).state = .ready) && decide (q.spec.phase = .ready)) = s.skipItem i := by
    unfold State.skipItem
    dsimp only
    split
    · next hr => simp only [hr, decide_true, Bool.true_and]; rfl
    · next hr => rw [State.abandon_none (by simp [hr])]; rfl
  rw [he] at h
  exact h

/-- The state after a skip but for its READY choice. -/
def State.skipping (s : State) (t : Track) (i : Slot) : State := (s.skipItem i).setTrack t { s.track t with ready := none }

theorem State.skipItem_track (s : State) (i : Slot) (v : Track) : (s.skipItem i).track v = s.track v :=
  (s.cueLevel_skipItem i).track v

theorem State.skip_eq (s : State) (t : Track) (i : Slot) : s.skip t i = (s.skipping t i).readyChoice t := by
  simp only [State.skip, State.skipItem_track]
  rfl

theorem State.skipping_ready (s : State) (t : Track) (i : Slot) : ((s.skipping t i).track t).ready = none := by
  rw [State.skipping, State.setTrack_track_self]

/-- A skip but for its record change and its pointer is a cue-level operation and a READY choice. -/
theorem State.choice_skip (s : State) (t : Track) (i : Slot) :
    State.ChoiceLevel t (s.setSlot i (s.slot i).skipped) (s.skip t i) := by
  have h1 : State.ChoiceLevel t (s.setSlot i (s.slot i).skipped) (s.skipItem i) := (s.cueLevel_skipItem i).choice
  have h2 := State.choice_setReady t (s.skipItem i) none
  rw [State.skipItem_track] at h2
  rw [State.skip_eq]
  exact (h1.trans h2).trans (State.choice_readyChoice _ t)

theorem State.skip_item (s : State) (t : Track) (i : Slot) :
    ((s.skip t i).slot i).state = .skipped ∧
      Item.Alike { s.slot i with revision := nextRevision (s.slot i).revision } ((s.skip t i).slot i) ∧
      ((s.skip t i).slot i).airing = (s.slot i).airing := by
  have hk := s.skipItem_kept_self i
  have hr := s.skipping_ready t i
  have hs : ((s.skipping t i).slot i).state = .skipped := hk.state
  have hn := State.readyChoice_notChosen hr (j := i) (by rw [hs]; nofun)
  have ha := (s.choice_skip t i).items i
  rw [State.setSlot_slot_self] at ha
  refine ⟨?_, ⟨ha.condition, ha.revision, ha.track, ha.fields, ha.specs, ha.start, ha.actual, ha.prompterEnd⟩, ?_⟩
  · rw [State.skip_eq, State.readyChoice_state_ne hr hn, hs]
  · rw [State.skip_eq, State.readyChoice_airing_ne hr hn]
    exact hk.airing

theorem State.aside_setSlot (s : State) (i : Slot) (x : Item) : s.Aside (s.setSlot i x) := by constructor <;> rfl

theorem State.Aside.watched (h : s.Aside u) : (s.setLooks u.looks).Aside u := by
  rw [h.looks]; exact h

theorem State.editOf_skip (s : State) (t : Track) (i : Slot) : s.EditOf (s.skip t i) t i := by
  have h := s.choice_skip t i
  have ha : s.Aside (s.skip t i) := (s.aside_setSlot i _).trans h.aside
  refine ⟨ha.watched, fun v => ?_, h.flags, h.status, h.readsDone, h.groups, h.armed, fun j hj => ?_,
    fun v hv => ⟨h.otherTrack v hv, ?_⟩, h.ownTrack⟩
  · rw [State.look, State.look, ha.looks]; exact .refl _
  · have := h.items j
    rwa [State.setSlot_slot_ne _ _ _ hj] at this
  · rw [State.order, h.orders]; rfl

theorem State.skip_looks (s : State) (t : Track) (i : Slot) : (s.skip t i).looks = s.looks := (s.choice_skip t i).aside.looks

theorem State.skip_head (s : State) (t : Track) (i : Slot) :
    ((s.skip t i).track t).ready = ((s.skip t i).candidates t).head? := by
  rw [State.skip_eq]; exact State.readyChoice_head _ t

/-! ### TRACK.SKIP -/

/-- The state after a TRACK.SKIP that is accepted, with its answer. -/
def State.skipAnswered (s : State) (t : Track) (i : Slot) : State :=
  ((s.select 2).skip t i).withBuffer (.ready ⟨.ok, .skipped i (((s.select 2).skip t i).track t).ready⟩)

theorem exec_trackSkip_skips (hp : s.portFree) (hr : (s.track t).ready = some i) :
    exec (.trackSkip (trackCode t)) s = .next (s.skipAnswered t i) := by
  have h : ((s.select 2).track t).ready = some i := hr
  rw [exec_trackSkip hp, State.serveSkip, trackOf_code, State.ranged_some]
  simp only [h]
  rfl

theorem exec_trackSkip_range (hp : s.portFree) {n : Nat} (h : 2 ≤ n) :
    exec (.trackSkip n) s = .next (s.answeredWith 2 .range .empty) := by
  rw [exec_trackSkip hp, State.serveSkip, trackOf_of_le h, State.ranged_none, State.refuse_buffered]

theorem exec_trackSkip_noNext (hp : s.portFree) (hr : (s.track t).ready = none) :
    exec (.trackSkip (trackCode t)) s = .next (s.answeredWith 2 .noNext .empty) := by
  have h : ((s.select 2).track t).ready = none := hr
  rw [exec_trackSkip hp, State.serveSkip, trackOf_code, State.ranged_some]
  simp only [h]
  rfl

theorem State.editOf_skipAnswered (s : State) (t : Track) (i : Slot) : s.EditOf (s.skipAnswered t i) t i := by
  have h := (s.select 2).editOf_skip t i
  have h0 : (s.setLooks (s.skipAnswered t i).looks).Aside ((s.select 2).setLooks (s.skipAnswered t i).looks) := by
    constructor <;> rfl
  exact ⟨(h0.trans h.aside).trans (State.aside_buffer _ _), h.looks, h.flags, h.status, h.readsDone, h.groups, h.armed, h.others,
    h.otherTrack, h.ownTrack⟩

end Sys2Proof.Machine

namespace Sys2Proof

open Sys2Proof.Machine

/-- Settles O26: a skip is the item's record changed, its cues abandoned, and a READY choice with no item standing READY. -/
theorem trackSkipPassesTheReadyItem : Obligations.TrackSkipPassesTheReadyItem := by
  intro s t hp
  refine ⟨fun n h => exec_trackSkip_range hp h, fun h => exec_trackSkip_noNext hp h, fun i hr => ?_⟩
  have hk := ((s.select 2).sequencer_skip t i).run
  obtain ⟨hstate, halike, hair⟩ := (s.select 2).skip_item t i
  refine ⟨s.skipAnswered t i, exec_trackSkip_skips hp hr, hstate, halike, hair, ((s.select 2).choice_skip t i).orders,
    s.editOf_skipAnswered t i, (s.select 2).skip_looks t i, fun hq => ?_, (s.select 2).skip_head t i,
    ⟨hk.sdoStatus, hk.sdo, rfl⟩⟩
  have he : ({ s with sdoStatus := (s.skipAnswered t i).sdoStatus, sdo := (s.skipAnswered t i).sdo } : State) = s.select 2 := by
    show ({ s with sdoStatus := ((s.select 2).skip t i).sdoStatus, sdo := ((s.select 2).skip t i).sdo } : State) = _
    rw [hk.sdoStatus, hk.sdo]
    rfl
  refine ⟨(s.select 2).skipItem i, ?_, ?_⟩
  · rw [he]
    exact State.skips_skipItem (s := s.select 2) hq i
  · rw [State.skipAnswered, State.skip_eq]
    rfl

end Sys2Proof
end

section
/-! SUPPORT. The stages of a take: the item that leaves air, the items passed over, the item that goes on air, and what an apply of groups
leaves of the pointers (R36, R46 to R48, R52). -/

namespace Sys2Proof.Machine

variable {s u v w : State} {t : Track} {i j o : Slot} {f : Frame} {l : List Slot}

/-! ### What the first two stages keep -/

/-- What the first two stages of a take keep. -/
structure State.StageLevel (s u : State) : Prop where
  aside : s.Aside u
  flags : s.flags.Within u.flags
  orders : u.orders = s.orders
  groups : u.groups = s.groups
  armed : u.armed = s.armed
  status : u.status = s.status
  buffer : u.buffer = s.buffer
  sdoStatus : u.sdoStatus = s.sdoStatus
  sdo : u.sdo = s.sdo

theorem State.StageLevel.refl (s : State) : s.StageLevel s := ⟨.refl s, .refl _, rfl, rfl, rfl, rfl, rfl, rfl, rfl⟩

theorem State.StageLevel.trans (a : s.StageLevel u) (b : u.StageLevel v) : s.StageLevel v :=
  ⟨a.aside.trans b.aside, a.flags.trans b.flags, b.orders.trans a.orders, b.groups.trans a.groups, b.armed.trans a.armed,
   b.status.trans a.status, b.buffer.trans a.buffer, b.sdoStatus.trans a.sdoStatus, b.sdo.trans a.sdo⟩

theorem State.CueLevel.stage (h : s.CueLevel u) : s.StageLevel u :=
  ⟨h.aside, h.flags, h.orders, h.groups, h.armed, h.status, h.buffer, h.sdoStatus, h.sdo⟩

theorem State.stage_setSlot (s : State) (i : Slot) (x : Item) : s.StageLevel (s.setSlot i x) :=
  ⟨by constructor <;> rfl, .refl _, rfl, rfl, rfl, rfl, rfl, rfl, rfl⟩

theorem State.stage_setTrack (s : State) (t : Track) (x : TrackRec) : s.StageLevel (s.setTrack t x) :=
  ⟨by constructor <;> rfl, .refl _, rfl, rfl, rfl, rfl, rfl, rfl, rfl⟩

theorem State.stage_setReadsDone (s : State) (l : List ReadDone) : s.StageLevel (s.setReadsDone l) :=
  ⟨by constructor <;> rfl, .refl _, rfl, rfl, rfl, rfl, rfl, rfl, rfl⟩

theorem State.stage_withPorts (s : State) (x : Transmit) : s.StageLevel (s.withPorts s.buffer x) :=
  ⟨by constructor <;> rfl, .refl _, rfl, rfl, rfl, rfl, rfl, rfl, rfl⟩

/-! ### Stage 1: the item that leaves air (R46 to R48) -/

/-- The record of an item that leaves air (R46, R47). -/
def State.doneRecord (s : State) (o : Slot) (f : Frame) : Item :=
  { s.slot o with
    revision := nextRevision (s.slot o).revision, state := .done, actual := some (s.completionOf o f).actual }

/-- The cues of the item that leaves air abandoned and armed (R97). -/
def State.outgoingCues (s : State) (o : Slot) (f : Frame) : State :=
  ((s.setSlot o (s.doneRecord o f)).abandonPhase o .start).armPhase .ending f o

theorem State.cueLevel_outgoingCues (s : State) (o : Slot) (f : Frame) :
    (s.setSlot o (s.doneRecord o f)).CueLevel (s.outgoingCues o f) :=
  (State.cueLevel_abandonPhase _ o .start).trans (State.cueLevel_armPhase _ .ending f o)

theorem State.takeOutgoing_none (h : (s.track t).onAir = none) (f : Frame) : s.takeOutgoing t f = s := by
  rw [State.takeOutgoing, h]

/-- The completion is formed of the record as stage 1 leaves it (R48). -/
theorem State.readDoneOf_outgoingCues (s : State) (o : Slot) (f : Frame) :
    readDoneOf o ((s.outgoingCues o f).slot o) f = s.completionOf o f := by
  have h := ((s.cueLevel_outgoingCues o f).items o).eq
  rw [State.setSlot_slot_self] at h
  rw [h]
  rfl

theorem State.takeOutgoing_some (h : (s.track t).onAir = some o) (f : Frame) :
    s.takeOutgoing t f = (s.outgoingCues o f).setReadsDone (s.readsDone ++ [s.completionOf o f]) := by
  have hr : (s.outgoingCues o f).readsDone = s.readsDone := (s.cueLevel_outgoingCues o f).readsDone
  rw [← s.readDoneOf_outgoingCues o f, ← hr]
  simp only [State.takeOutgoing, h]
  rfl

theorem State.takeOutgoing_stage (s : State) (t : Track) (f : Frame) : s.StageLevel (s.takeOutgoing t f) := by
  cases h : (s.track t).onAir with
  | none => rw [State.takeOutgoing_none h]; exact .refl s
  | some o =>
    rw [State.takeOutgoing_some h]
    exact ((s.stage_setSlot o _).trans (s.cueLevel_outgoingCues o f).stage).trans (State.stage_setReadsDone _ _)

theorem State.takeOutgoing_tracks (s : State) (t : Track) (f : Frame) : (s.takeOutgoing t f).tracks = s.tracks := by
  cases h : (s.track t).onAir with
  | none => rw [State.takeOutgoing_none h]
  | some o => rw [State.takeOutgoing_some h, State.setReadsDone_tracks, (s.cueLevel_outgoingCues o f).tracks, State.setSlot_tracks]

theorem State.takeOutgoing_track (s : State) (t : Track) (f : Frame) (v : Track) : (s.takeOutgoing t f).track v = s.track v := by
  rw [State.track, State.takeOutgoing_tracks]; rfl

theorem State.takeOutgoing_prompterTx (s : State) (t : Track) (f : Frame) : (s.takeOutgoing t f).prompterTx = s.prompterTx := by
  cases h : (s.track t).onAir with
  | none => rw [State.takeOutgoing_none h]
  | some o =>
    rw [State.takeOutgoing_some h, State.setReadsDone_prompterTx, (s.cueLevel_outgoingCues o f).prompterTx,
      State.setSlot_prompterTx]

theorem State.takeOutgoing_readsDone (s : State) (t : Track) (f : Frame) : (s.takeOutgoing t f).readsDone =
    s.readsDone ++ ((s.track t).onAir.map (fun o => s.completionOf o f)).toList := by
  cases h : (s.track t).onAir with
  | none => rw [State.takeOutgoing_none h]; simp
  | some o => rw [State.takeOutgoing_some h]; rfl

theorem State.takeOutgoing_kept_ne (h : (s.track t).onAir ≠ some j) (f : Frame) :
    (s.slot j).Kept ((s.takeOutgoing t f).slot j) := by
  cases ho : (s.track t).onAir with
  | none => rw [State.takeOutgoing_none ho]; exact .refl _
  | some o =>
    have hj : j ≠ o := fun e => h (e ▸ ho)
    have hk := (s.cueLevel_outgoingCues o f).items j
    rw [State.setSlot_slot_ne _ _ _ hj] at hk
    rwa [State.takeOutgoing_some ho, State.setReadsDone_slot]

theorem State.takeOutgoing_kept_self (h : (s.track t).onAir = some o) (f : Frame) :
    (s.doneRecord o f).Kept ((s.takeOutgoing t f).slot o) := by
  have hk := (s.cueLevel_outgoingCues o f).items o
  rw [State.setSlot_slot_self] at hk
  rwa [State.takeOutgoing_some h, State.setReadsDone_slot]

/-- Stage 1 leaves the script and the fields of every item. -/
theorem State.takeOutgoing_fields (s : State) (t : Track) (f : Frame) (j : Slot) :
    ((s.takeOutgoing t f).slot j).fields = (s.slot j).fields := ((s.sequencer_takeOutgoing t f).items j).fields

theorem State.leavesAir_takeOutgoing (hs : s.QueuesIdle) (t : Track) (f : Frame) : s.LeavesAir (s.takeOutgoing t f) t f :=
  ⟨fun h => State.takeOutgoing_none h f, fun o h =>
    ⟨_, State.abandoned_abandon (s := s.setSlot o (s.doneRecord o f)) hs o _, State.takeOutgoing_some h f⟩⟩

theorem State.takeOutgoing_queuesIdle (hs : s.QueuesIdle) (t : Track) (f : Frame) : (s.takeOutgoing t f).QueuesIdle := by
  cases h : (s.track t).onAir with
  | none => rw [State.takeOutgoing_none h]; exact hs
  | some o =>
    have h1 := (State.abandoned_abandon (s := s.setSlot o (s.doneRecord o f)) hs o
      (fun q => decide (q.spec.phase = .start))).queuesIdle hs
    have h2 : (s.outgoingCues o f).QueuesIdle := (State.confined_armPhase h1 .ending f o).idle
    rw [State.takeOutgoing_some h]
    intro c
    rw [State.setReadsDone_channel]
    exact h2 c

/-! ### The items passed over (R52) -/

theorem State.stage_skipItem (s : State) (i : Slot) : s.StageLevel (s.skipItem i) :=
  (s.stage_setSlot i _).trans (s.cueLevel_skipItem i).stage

/-- The items passed over made SKIPPED, one after another (R52). -/
def State.skipAll (s : State) (l : List Slot) : State := l.foldl State.skipItem s

@[simp] theorem State.skipAll_cons (s : State) (j : Slot) (l : List Slot) : s.skipAll (j :: l) = (s.skipItem j).skipAll l := rfl

theorem State.skipAll_stage (s : State) (l : List Slot) : s.StageLevel (s.skipAll l) := by
  induction l generalizing s with
  | nil => exact .refl s
  | cons j l ih => exact (s.stage_skipItem j).trans (ih _)

theorem State.skipAll_tracks (s : State) (l : List Slot) : (s.skipAll l).tracks = s.tracks := by
  induction l generalizing s with
  | nil => rfl
  | cons j l ih => rw [State.skipAll_cons, ih]; exact (s.cueLevel_skipItem j).tracks

theorem State.skipAll_readsDone (s : State) (l : List Slot) : (s.skipAll l).readsDone = s.readsDone := by
  induction l generalizing s with
  | nil => rfl
  | cons j l ih => rw [State.skipAll_cons, ih]; exact (s.cueLevel_skipItem j).readsDone

theorem State.skipAll_prompterTx (s : State) (l : List Slot) : (s.skipAll l).prompterTx = s.prompterTx := by
  induction l generalizing s with
  | nil => rfl
  | cons j l ih => rw [State.skipAll_cons, ih]; exact (s.cueLevel_skipItem j).prompterTx

theorem State.skipAll_kept (s : State) (h : j ∉ l) : (s.slot j).Kept ((s.skipAll l).slot j) := by
  induction l generalizing s with
  | nil => exact .refl _
  | cons k l ih =>
    obtain ⟨hk, hl⟩ := not_or.mp (mt List.mem_cons.mpr h)
    exact (s.skipItem_kept_ne hk).trans (ih _ hl)

theorem State.skipAll_skipped (s : State) (h : j ∈ l) : ((s.skipAll l).slot j).state = .skipped := by
  induction l generalizing s with
  | nil => cases h
  | cons k l ih =>
    rw [State.skipAll_cons]
    by_cases hl : j ∈ l
    · exact ih _ hl
    · obtain rfl : j = k := (List.mem_cons.mp h).resolve_right hl
      rw [(State.skipAll_kept _ hl).state]
      exact (s.skipItem_kept_self j).state

theorem State.passedOver_skipAll (hs : s.QueuesIdle) (l : List Slot) : s.PassedOver l (s.skipAll l) ∧ (s.skipAll l).QueuesIdle := by
  induction l generalizing s with
  | nil => exact ⟨.nil s, hs⟩
  | cons j l ih =>
    have h1 := State.skips_skipItem hs j
    obtain ⟨h2, h3⟩ := ih (s := s.skipItem j) (State.Abandoned.queuesIdle h1 hs)
    exact ⟨.cons h1 h2, h3⟩

/-! ### Stage 2: the item that goes on air (R46) -/

/-- The frames that stage 2 sends the prompter for the item that goes on air (R145, R146). -/
def Item.airFrames (x : Item) (t : Track) : List OutFrame :=
  (if x.state = .ready then [] else (x.fields.script.map (fun f => OutFrame.loadScript f t)).toList) ++
    (x.fields.script.map (fun f => OutFrame.go f t)).toList

/-- The item made ON_AIR and the pointers set, before its frames are sent and its cues armed. -/
def State.onAirSet (s : State) (t : Track) (i : Slot) (f : Frame) : State :=
  (s.setSlot i ((s.slot i).enterAir f)).setTrack t { s.track t with onAir := some i, ready := none }

theorem State.emitScript_eq (s : State) (x : Option Word32) (g : Word32 → OutFrame) :
    s.emitScript x g = s.withPorts s.buffer ((x.map g).toList.foldl Transmit.push s.prompterTx) := by
  cases x <;> rfl

/-- Stage 2 is the arming of the item made ON_AIR, with its frames sent to the prompter. -/
theorem State.takeIncoming_eq (s : State) (t : Track) (i : Slot) (f : Frame) (l : List Slot) :
    s.takeIncoming t i f l = (((s.skipAll l).onAirSet t i f).armPhase .start f i).withPorts s.buffer
      ((((s.skipAll l).slot i).airFrames t).foldl Transmit.push s.prompterTx) := by
  rw [← (s.skipAll_stage l).buffer, ← s.skipAll_prompterTx l, ← State.withPorts_armPhase]
  unfold State.takeIncoming Item.airFrames
  show (State.emitScript (if ((s.skipAll l).slot i).state = .ready then (s.skipAll l).onAirSet t i f else
    ((s.skipAll l).onAirSet t i f).emitScript ((s.skipAll l).slot i).fields.script (fun x => .loadScript x t)) _ _).armPhase
      .start f i = _
  rw [State.emitScript_eq]
  split
  · rfl
  · rw [State.emitScript_eq, List.foldl_append]
    rfl

theorem State.cueLevel_onAir (s : State) (t : Track) (i : Slot) (f : Frame) :
    (s.onAirSet t i f).CueLevel ((s.onAirSet t i f).armPhase .start f i) := State.cueLevel_armPhase _ _ _ _

theorem State.takeIncoming_stage (s : State) (t : Track) (i : Slot) (f : Frame) (l : List Slot) :
    s.StageLevel (s.takeIncoming t i f l) := by
  have h := (s.skipAll_stage l).trans
    ((((State.stage_setSlot _ i _).trans (State.stage_setTrack _ t _)).trans ((s.skipAll l).cueLevel_onAir t i f).stage))
  rw [State.takeIncoming_eq, ← h.buffer]
  exact h.trans (State.stage_withPorts _ _)

theorem State.takeIncoming_track_self (s : State) (t : Track) (i : Slot) (f : Frame) (l : List Slot) :
    (s.takeIncoming t i f l).track t = { s.track t with onAir := some i, ready := none } := by
  have h : (s.skipAll l).track t = s.track t := by rw [State.track, State.skipAll_tracks]; rfl
  rw [State.takeIncoming_eq, ← h]
  exact (((s.skipAll l).cueLevel_onAir t i f).track t).trans (State.setTrack_track_self _ _ _)

theorem State.takeIncoming_track_ne (s : State) {v : Track} (hv : v ≠ t) (i : Slot) (f : Frame) (l : List Slot) :
    (s.takeIncoming t i f l).track v = s.track v := by
  have h : (s.skipAll l).track v = s.track v := by rw [State.track, State.skipAll_tracks]; rfl
  rw [State.takeIncoming_eq, ← h]
  exact (((s.skipAll l).cueLevel_onAir t i f).track v).trans (State.setTrack_track_ne _ _ _ hv)

theorem State.takeIncoming_readsDone (s : State) (t : Track) (i : Slot) (f : Frame) (l : List Slot) :
    (s.takeIncoming t i f l).readsDone = s.readsDone := by
  rw [State.takeIncoming_eq]
  exact ((s.skipAll l).cueLevel_onAir t i f).readsDone.trans (s.skipAll_readsDone l)

theorem State.takeIncoming_kept_self (s : State) (t : Track) (i : Slot) (f : Frame) (l : List Slot) :
    (((s.skipAll l).slot i).enterAir f).Kept ((s.takeIncoming t i f l).slot i) := by
  have h := ((s.skipAll l).cueLevel_onAir t i f).items i
  rw [State.onAirSet, State.setTrack_slot, State.setSlot_slot_self] at h
  rw [State.takeIncoming_eq]
  exact h

theorem State.takeIncoming_kept_ne (s : State) (t : Track) (h : j ≠ i) (f : Frame) (l : List Slot) :
    ((s.skipAll l).slot j).Kept ((s.takeIncoming t i f l).slot j) := by
  have k := ((s.skipAll l).cueLevel_onAir t i f).items j
  rw [State.onAirSet, State.setTrack_slot, State.setSlot_slot_ne _ _ _ h] at k
  rw [State.takeIncoming_eq]
  exact k

theorem State.takeIncoming_fields (s : State) (t : Track) (i : Slot) (f : Frame) (l : List Slot) (j : Slot) :
    ((s.takeIncoming t i f l).slot j).fields = (s.slot j).fields := ((s.sequencer_takeIncoming t i f l).items j).fields

/-- The record of an item that enters ON_AIR, in the terms of the statements (R46). -/
theorem Item.enterAir_eq (x : Item) (f : Frame) : x.enterAir f =
    { x with
      airing := nextAiring x.airing, revision := nextRevision x.revision, state := .onAir, start := some f, prompterEnd := none
      cueFault := decide (x.state = .ready) && x.cueFault } := by
  by_cases h : x.state = .ready <;> simp [Item.enterAir, Item.advanceAiring, Item.advanceRevision, h]

theorem State.entersAir_iff : v.EntersAir u t i f ↔
    u = { (v.onAirSet t i f).armPhase .start f i with prompterTx := u.prompterTx } := by
  rw [State.EntersAir, ← Item.enterAir_eq]
  rfl

theorem State.entersAir_takeIncoming (s : State) (t : Track) (i : Slot) (f : Frame) (l : List Slot) :
    (s.skipAll l).EntersAir (s.takeIncoming t i f l) t i f := by
  have hb := ((s.skipAll l).cueLevel_onAir t i f).buffer.trans (s.skipAll_stage l).buffer
  rw [State.entersAir_iff, State.takeIncoming_eq, ← hb]
  rfl

/-! ### What an apply of groups leaves of the tracks -/

/-- The tracks have kept all but their READY pointers. -/
def State.OnlyReady (s u : State) : Prop := ∀ v, u.track v = { s.track v with ready := (u.track v).ready }

theorem State.OnlyReady.refl (s : State) : s.OnlyReady s := fun _ => rfl

theorem State.OnlyReady.trans (a : s.OnlyReady u) (b : u.OnlyReady v) : s.OnlyReady v := fun r => by rw [b r, a r]

theorem State.OnlyReady.of_tracks (h : u.tracks = s.tracks) : s.OnlyReady u := fun v => by rw [State.track, h]; rfl

/-- An edit reaches no pointer but READY (R14 to R19). -/
theorem State.onlyReady_performEdit (s : State) (i : Slot) (c : Bool) (b : EditBody) : s.OnlyReady (s.performEdit i c b) := by
  have h := s.editMade_performEdit i c b
  generalize s.performEdit i c b = u at h ⊢
  cases b with
  | create t a f l => exact .of_tracks (by rw [h]; rfl)
  | update p => exact .of_tracks (by rw [h.1]; rfl)
  | move a => exact .of_tracks (by rw [h]; rfl)
  | retire =>
    obtain ⟨-, -, -, hne, hself, -⟩ := h
    intro v
    by_cases e : v = (s.slot i).track
    · subst e
      have hs : u.track (s.slot i).track = _ := hself
      rw [hs]
      rfl
    · have hv := (hne v e).2
      rw [hv]
      rfl
  | restore => exact .of_tracks h.2.2.1
  | cues l => exact .of_tracks h.2.2.1

theorem State.onlyReady_runEdits {ref : Reference} {k : Nat} {l : List StagedEdit} (h : State.runEdits ref k l s = .ok u) :
    s.OnlyReady u := by
  induction l generalizing s k with
  | nil => cases h; exact .refl _
  | cons e l ih =>
    cases hc : s.checkEdit ref e.slot e.revision e.body with
    | some cause => rw [State.runEdits_cons_error hc] at h; cases h
    | none =>
      rw [State.runEdits_cons_ok hc] at h
      exact (State.onlyReady_performEdit _ _ _ _).trans (ih h)

theorem State.onlyReady_applyGroup (pre post : Bank 512 Item) (s : State) (g : GroupNo) :
    s.OnlyReady (State.applyGroup pre post s g) := by
  cases h : State.runEdits (s.applyReference (s.group g) pre post) 0 (s.group g).edits s with
  | ok v =>
    rw [State.applyGroup_ok h]
    exact (State.onlyReady_runEdits h).trans (.of_tracks rfl)
  | error e =>
    obtain ⟨cause, k⟩ := e
    rw [State.applyGroup_error h]
    refine .of_tracks ?_
    show (s.freeReserved (s.group g).reserved).tracks = _
    rw [State.freeReserved_eq]

/-- The groups applied at a take reach no pointer but READY (R36). -/
theorem State.onlyReady_applyArmed (s : State) (t : Track) (pre : Bank 512 Item) : s.OnlyReady (s.applyArmed t pre) := by
  unfold State.applyArmed
  generalize s.armedQueue t = l
  generalize s.slots = post
  induction l generalizing s with
  | nil => exact .refl s
  | cons g l ih => exact (State.onlyReady_applyGroup pre post s g).trans (ih _)

theorem State.applyArmed_nil (h : s.armedQueue t = []) (pre : Bank 512 Item) : s.applyArmed t pre = s := by
  rw [State.applyArmed, h]; rfl

end Sys2Proof.Machine
end

section
/-! SUPPORT. What a take leaves, in the terms of the statements: its first two stages, and the whole of it (R46 to R49). -/

namespace Sys2Proof.Machine

variable {s u v w : State} {t : Track} {i j o : Slot} {f : Frame} {l : List Slot}

/-! ### The first two stages -/

/-- The first two stages of a take (R46). -/
def State.cutting (s : State) (t : Track) (i : Slot) (f : Frame) (l : List Slot) : State :=
  (s.takeOutgoing t f).takeIncoming t i f l

theorem State.cutting_stage (s : State) (t : Track) (i : Slot) (f : Frame) (l : List Slot) : s.StageLevel (s.cutting t i f l) :=
  (s.takeOutgoing_stage t f).trans (State.takeIncoming_stage _ t i f l)

theorem State.cutting_track_self (s : State) (t : Track) (i : Slot) (f : Frame) (l : List Slot) :
    (s.cutting t i f l).track t = { s.track t with onAir := some i, ready := none } := by
  rw [State.cutting, State.takeIncoming_track_self, State.takeOutgoing_track]

theorem State.cutting_track_ne (s : State) {v : Track} (hv : v ≠ t) (i : Slot) (f : Frame) (l : List Slot) :
    (s.cutting t i f l).track v = s.track v := by
  rw [State.cutting, State.takeIncoming_track_ne _ hv, State.takeOutgoing_track]

theorem State.cutting_readsDone (s : State) (t : Track) (i : Slot) (f : Frame) (l : List Slot) : (s.cutting t i f l).readsDone =
    s.readsDone ++ ((s.track t).onAir.map (fun o => s.completionOf o f)).toList := by
  rw [State.cutting, State.takeIncoming_readsDone, State.takeOutgoing_readsDone]

theorem State.cutting_fields (s : State) (t : Track) (i : Slot) (f : Frame) (l : List Slot) (j : Slot) :
    ((s.cutting t i f l).slot j).fields = (s.slot j).fields := by
  rw [State.cutting, State.takeIncoming_fields, State.takeOutgoing_fields]

/-- The record of the item that goes on air, where it is not the item on air and is not passed over. -/
theorem State.cutting_incoming (hl : i ∉ l) (ho : (s.track t).onAir ≠ some i) :
    ((s.cutting t i f l).slot i).state = .onAir ∧ ((s.cutting t i f l).slot i).start = some f ∧
      ((s.cutting t i f l).slot i).prompterEnd = none ∧
      ((s.cutting t i f l).slot i).revision = nextRevision (s.slot i).revision ∧
      ((s.cutting t i f l).slot i).airing = nextAiring (s.slot i).airing := by
  have h1 : (s.slot i).Kept (((s.takeOutgoing t f).skipAll l).slot i) :=
    (State.takeOutgoing_kept_ne ho f).trans (State.skipAll_kept _ hl)
  have h2 := (s.takeOutgoing t f).takeIncoming_kept_self t i f l
  rw [Item.enterAir_eq, h1.revision, h1.airing] at h2
  exact ⟨h2.state, h2.start, h2.prompterEnd, h2.revision, h2.airing⟩

/-- The record of the item that leaves air, where it is not the item that goes on air and is not passed over. -/
theorem State.cutting_outgoing (ho : (s.track t).onAir = some o) (hi : o ≠ i) (hl : o ∉ l) :
    (s.doneRecord o f).Kept ((s.cutting t i f l).slot o) :=
  ((State.takeOutgoing_kept_self ho f).trans (State.skipAll_kept _ hl)).trans (State.takeIncoming_kept_ne _ t hi f l)

theorem State.cutting_passed (hj : j ∈ l) (hi : j ≠ i) : ((s.cutting t i f l).slot j).state = .skipped := by
  rw [State.cutting, (State.takeIncoming_kept_ne _ t hi f l).state]
  exact State.skipAll_skipped _ hj

theorem State.cutting_other (hi : j ≠ i) (ho : (s.track t).onAir ≠ some j) (hl : j ∉ l) :
    (s.slot j).Kept ((s.cutting t i f l).slot j) :=
  ((State.takeOutgoing_kept_ne ho f).trans (State.skipAll_kept _ hl)).trans (State.takeIncoming_kept_ne _ t hi f l)

theorem State.cutting_prompterTx (hl : i ∉ l) (ho : (s.track t).onAir ≠ some i) :
    (s.cutting t i f l).prompterTx = ((s.slot i).airFrames t).foldl Transmit.push s.prompterTx := by
  have h1 : (s.slot i).Kept (((s.takeOutgoing t f).skipAll l).slot i) :=
    (State.takeOutgoing_kept_ne ho f).trans (State.skipAll_kept _ hl)
  have hf : (((s.takeOutgoing t f).skipAll l).slot i).airFrames t = (s.slot i).airFrames t := by
    rw [Item.airFrames, h1.state, h1.fields]
    rfl
  rw [State.cutting, State.takeIncoming_eq, hf, State.takeOutgoing_prompterTx]
  rfl

/-- A state that begins a take is as its first stage finds it. -/
theorem State.atTake_self (hc : w.cut = s.cut) (h1 : w.sdoStatus = s.sdoStatus) (h2 : w.sdo = s.sdo) (h3 : w.buffer = s.buffer)
    (hl : (w.track t).lockoutCount = (s.track t).lockoutCount) : s.atTake w t = s := by
  rw [State.atTake, hc, h1, h2, h3, hl]
  exact congrArg (fun p => { s with tracks := p }) (PerTrack.set_get s.tracks t)

theorem State.cutTo_cutting (s : State) (t : Track) (i : Slot) (f : Frame) (l : List Slot) :
    s.CutTo (s.cutting t i f l) t i f l := by
  have hs := s.cutting_stage t i f l
  have ht := s.cutting_track_self t i f l
  have hlc : ((s.cutting t i f l).track t).lockoutCount = (s.track t).lockoutCount := by rw [ht]
  refine ⟨?_, fun v hv => s.cutting_track_ne hv i f l, ?_, hs.flags, hs.status, hs.orders, hs.groups, hs.armed,
    s.cutting_readsDone t i f l, State.cutting_incoming, fun o ho hi hl => ?_, fun j hj hi => State.cutting_passed hj hi,
    State.cutting_prompterTx, fun j hi ho hl => (State.cutting_other hi ho hl).alike, fun hq => ?_⟩
  · rw [hlc]; exact ht
  · rw [hs.aside.cut]; exact hs.aside
  · have h := State.cutting_outgoing (f := f) ho hi hl
    exact ⟨h.state, h.actual, h.start, h.revision⟩
  · obtain ⟨h2, h3⟩ := State.passedOver_skipAll (State.takeOutgoing_queuesIdle hq t f) l
    rw [State.atTake_self hs.aside.cut hs.sdoStatus hs.sdo hs.buffer hlc]
    exact ⟨_, _, State.leavesAir_takeOutgoing hq t f, h2, State.entersAir_takeIncoming _ t i f l⟩

/-! ### The whole take -/

theorem State.take_eq (s : State) (t : Track) (i : Slot) (f : Frame) (l : List Slot) :
    s.take t i f l = (((s.cutting t i f l).applyArmed t s.slots).readyChoice t).takeClose t := rfl

theorem State.takeClose_track_self (s : State) (t : Track) :
    (s.takeClose t).track t = { s.track t with lockoutCount := (s.track t).lockout, lastTake := some s.sfc } := by
  rw [State.takeClose, State.raise_track, State.setCut_track, State.setTrack_track_self]

theorem State.takeClose_track_ne (s : State) {v : Track} (hv : v ≠ t) : (s.takeClose t).track v = s.track v :=
  State.setTrack_track_ne _ _ _ hv

theorem State.takeClose_candidates (s : State) (t : Track) : (s.takeClose t).candidates t = s.candidates t :=
  State.candidates_congr rfl (by rw [State.takeClose_track_self]) fun i => by
    simp only [State.isCandidate, State.takeClose_track_self]
    rfl

/-- The frames that a READY choice sends the prompter where no item stood READY (R145). -/
theorem State.readyChoice_prompterTx (h : (s.track t).ready = none) : (s.readyChoice t).prompterTx =
    (((s.readyChoice t).track t).ready.bind
      (fun r => (s.slot r).fields.script.map (fun f => OutFrame.loadScript f t))).toList.foldl Transmit.push s.prompterTx := by
  rw [State.readyChoice_chosen h]
  cases hc : (s.candidates t).head? with
  | none => rw [State.readyChoice_none h hc]; rfl
  | some i =>
    have hp : ∀ v : State, (v.armPhase .ready s.sfc i).prompterTx = v.prompterTx := fun v =>
      (State.cueLevel_armPhase v .ready s.sfc i).prompterTx
    rw [State.readyChoice_some h hc, State.enterReady, State.emitScript_eq, hp]
    rfl

/-- What an apply at a take gives a group as its last result is never NONE (R25). -/
theorem LastResult.Settles.ne_none {x : LastResult} {n : Nat} (h : x.Settles n) : x ≠ .none := by
  rcases h with rfl | ⟨cause, k, rfl, -⟩ <;> nofun

section
variable (s t i f l)

/-- The state after the third stage of a take (R36). -/
def State.takeApplied : State := (s.cutting t i f l).applyArmed t s.slots

theorem State.take_closes : s.take t i f l = ((s.takeApplied t i f l).readyChoice t).takeClose t := rfl

theorem State.takeApplied_apply : (s.cutting t i f l).ApplyLevel (s.takeApplied t i f l) := State.applyLevel_foldl _ _ _ _

theorem State.cutting_armedQueue : (s.cutting t i f l).armedQueue t = s.armedQueue t := by
  rw [State.armedQueue, (s.cutting_stage t i f l).armed]; rfl

theorem State.takeApplied_track : (s.takeApplied t i f l).track t =
    { s.track t with onAir := some i, ready := ((s.takeApplied t i f l).track t).ready } := by
  have h := State.onlyReady_applyArmed (s.cutting t i f l) t s.slots t
  rw [s.cutting_track_self t i f l] at h
  exact h

theorem State.takeApplied_sfc : (s.takeApplied t i f l).sfc = s.sfc := by
  have h := (s.takeApplied_apply t i f l).aside.sfc
  rw [State.setLooks_sfc] at h
  rw [h, (s.cutting_stage t i f l).aside.sfc]

theorem State.takeApplied_due : (s.takeApplied t i f l).due = s.due := by
  have h := (s.takeApplied_apply t i f l).aside.due
  rw [State.setLooks_due] at h
  rw [h, (s.cutting_stage t i f l).aside.due]

theorem State.take_sfc : ((s.takeApplied t i f l).readyChoice t).sfc = s.sfc := by
  rw [(State.choice_readyChoice _ t).aside.sfc, s.takeApplied_sfc]

theorem State.take_track : (s.take t i f l).track t = { s.track t with
    onAir := some i, ready := ((s.take t i f l).candidates t).head?, lockoutCount := (s.track t).lockout
    lastTake := some s.sfc } := by
  have hr := (State.choice_readyChoice (s.takeApplied t i f l) t).ownTrack
  rw [s.takeApplied_track t i f l, State.readyChoice_head] at hr
  rw [State.take_closes, State.takeClose_track_self, State.takeClose_candidates, s.take_sfc t i f l, hr]

theorem State.take_cut : (s.take t i f l).cut = s.cut.set t (decide (.sequencer t ∈ s.due)) := by
  have hc := (State.choice_readyChoice (s.takeApplied t i f l) t).aside
  have h1 : ((s.takeApplied t i f l).readyChoice t).cut = s.cut := by
    rw [hc.cut, (s.takeApplied_apply t i f l).cut, (s.cutting_stage t i f l).aside.cut]
  have h2 : ((s.takeApplied t i f l).readyChoice t).due = s.due := by rw [hc.due, s.takeApplied_due]
  rw [State.take_closes, State.takeClose, State.raise_cut, State.setCut_cut, h1, h2, List.contains_eq_mem]

theorem State.take_status : (s.take t i f l).status = s.status :=
  (State.choice_readyChoice (s.takeApplied t i f l) t).status.trans
    ((s.takeApplied_apply t i f l).status.trans (s.cutting_stage t i f l).status)

theorem State.take_readsDone : (s.take t i f l).readsDone =
    s.readsDone ++ ((s.track t).onAir.map (fun o => s.completionOf o f)).toList :=
  (State.choice_readyChoice (s.takeApplied t i f l) t).readsDone.trans
    ((s.takeApplied_apply t i f l).readsDone.trans (s.cutting_readsDone t i f l))

theorem State.take_event : (s.take t i f l).flags.get (takeEvent t) = true := EventSet.get_put_self _ _

theorem State.take_group (g : GroupNo) : (s.take t i f l).group g = (s.takeApplied t i f l).group g := by
  have h := (State.choice_readyChoice (s.takeApplied t i f l) t).groups
  exact congrArg (fun b => b.get g) h

theorem State.take_armedQueue (v : Track) : (s.take t i f l).armedQueue v = (s.takeApplied t i f l).armedQueue v := by
  have h := (State.choice_readyChoice (s.takeApplied t i f l) t).armed
  exact congrArg (fun b => b.get v) h

theorem State.cutting_group (g : GroupNo) : (s.cutting t i f l).group g = s.group g := by
  rw [State.group, (s.cutting_stage t i f l).groups]; rfl

theorem State.take_groups : ∀ g ∈ s.armedQueue t, ∃ last, (s.take t i f l).group g =
    { s.group g with state := .idle, edits := [], reserved := [], reservedEntries := 0, last := last } ∧ last ≠ .none := by
  intro g hg
  rw [← s.cutting_armedQueue t i f l] at hg
  obtain ⟨last, h, hs⟩ := State.foldl_applyGroup_group_of_mem (pre := s.slots) (post := (s.cutting t i f l).slots) hg (s.cutting t i f l)
  rw [s.cutting_group t i f l g] at h
  exact ⟨last, (s.take_group t i f l g).trans h, hs.ne_none⟩

theorem State.take_otherGroups {g : GroupNo} (hg : g ∉ s.armedQueue t) : (s.take t i f l).group g = s.group g := by
  rw [← s.cutting_armedQueue t i f l] at hg
  rw [s.take_group, ← s.cutting_group t i f l g]
  exact State.foldl_applyGroup_group_of_notMem hg _

theorem State.take_queue (h : ∀ g ∈ s.armedQueue t, (s.group g).track = t) :
    (s.take t i f l).armedQueue t = [] ∧ ∀ v, v ≠ t → (s.take t i f l).armedQueue v = s.armedQueue v := by
  obtain ⟨h1, h2⟩ := State.foldl_applyGroup_queue (s := s.cutting t i f l) (pre := s.slots) (post := (s.cutting t i f l).slots)
    (l := (s.cutting t i f l).armedQueue t) (t := t) fun g hg => by
      rw [s.cutting_armedQueue] at hg
      rw [s.cutting_group]
      exact h g hg
  refine ⟨?_, fun v hv => ?_⟩
  · rw [s.take_armedQueue]
    exact h1.trans (by simp)
  · have ha : (s.cutting t i f l).armedQueue v = s.armedQueue v := by
      rw [State.armedQueue, (s.cutting_stage t i f l).armed]; rfl
    rw [s.take_armedQueue, ← ha]
    exact h2 v hv

theorem State.take_groupDone (h : s.armedQueue t ≠ []) : (s.take t i f l).flags.get .groupDone = true := by
  rw [← s.cutting_armedQueue t i f l] at h
  have h1 := State.foldl_applyGroup_groupDone (pre := s.slots) (post := (s.cutting t i f l).slots) h (s.cutting t i f l)
  have h2 := (State.choice_readyChoice (s.takeApplied t i f l) t).flags .groupDone h1
  exact EventSet.within_put _ _ .groupDone h2

end

/-! ### A take with no group armed -/

section
variable (h : s.armedQueue t = [])
include h

theorem State.take_unarmed (i : Slot) (f : Frame) (l : List Slot) :
    s.take t i f l = ((s.cutting t i f l).readyChoice t).takeClose t := by
  rw [State.take_eq, State.applyArmed_nil (by rw [s.cutting_armedQueue]; exact h)]

theorem State.take_slot (i : Slot) (f : Frame) (l : List Slot) (j : Slot) :
    (s.take t i f l).slot j = ((s.cutting t i f l).readyChoice t).slot j := by
  rw [State.take_unarmed h]; rfl

theorem State.take_ready (i : Slot) (f : Frame) (l : List Slot) :
    ((s.take t i f l).track t).ready = (((s.cutting t i f l).readyChoice t).track t).ready := by
  rw [State.take_unarmed h, State.takeClose_track_self]

/-- An item that the first two stages leave neither PLANNED nor READY stands so after the take, with its airing as they left it. -/
theorem State.take_keeps (hj : ((s.cutting t i f l).slot j).state ≠ .planned) :
    ((s.take t i f l).slot j).state = ((s.cutting t i f l).slot j).state ∧
      ((s.take t i f l).slot j).airing = ((s.cutting t i f l).slot j).airing ∧
      ((s.cutting t i f l).slot j).Alike ((s.take t i f l).slot j) := by
  have hr : ((s.cutting t i f l).track t).ready = none := by rw [s.cutting_track_self]
  have hn := State.readyChoice_notChosen hr hj
  rw [State.take_slot h]
  exact ⟨State.readyChoice_state_ne hr hn, State.readyChoice_airing_ne hr hn, (State.choice_readyChoice _ t).items j⟩

theorem State.take_incoming (hl : i ∉ l) (ho : (s.track t).onAir ≠ some i) :
    ((s.take t i f l).slot i).state = .onAir ∧ ((s.take t i f l).slot i).start = some f ∧
      ((s.take t i f l).slot i).prompterEnd = none ∧
      ((s.take t i f l).slot i).revision = nextRevision (s.slot i).revision ∧
      ((s.take t i f l).slot i).airing = nextAiring (s.slot i).airing := by
  obtain ⟨h1, h2, h3, h4, h5⟩ := State.cutting_incoming (f := f) hl ho
  obtain ⟨k1, k2, k3⟩ := State.take_keeps h (j := i) (i := i) (f := f) (l := l) (by rw [h1]; nofun)
  exact ⟨k1.trans h1, k3.start.trans h2, k3.prompterEnd.trans h3, k3.revision.trans h4, k2.trans h5⟩

theorem State.take_outgoing (ho : (s.track t).onAir = some o) (hi : o ≠ i) (hl : o ∉ l) :
    ((s.take t i f l).slot o).state = .done ∧ ((s.take t i f l).slot o).actual = some (s.completionOf o f).actual ∧
      ((s.take t i f l).slot o).start = (s.slot o).start ∧
      ((s.take t i f l).slot o).revision = nextRevision (s.slot o).revision := by
  have hk := State.cutting_outgoing (f := f) ho hi hl
  have hs : ((s.cutting t i f l).slot o).state = .done := hk.state
  obtain ⟨k1, -, k3⟩ := State.take_keeps h (j := o) (i := i) (f := f) (l := l) (by rw [hs]; nofun)
  exact ⟨k1.trans hs, k3.actual.trans hk.actual, k3.start.trans hk.start, k3.revision.trans hk.revision⟩

theorem State.take_passed (hj : j ∈ l) (hi : j ≠ i) : ((s.take t i f l).slot j).state = .skipped := by
  have hs := State.cutting_passed (s := s) (t := t) (f := f) hj hi
  exact (State.take_keeps h (by rw [hs]; nofun)).1.trans hs

theorem State.take_orders (i : Slot) (f : Frame) (l : List Slot) : (s.take t i f l).orders = s.orders := by
  rw [State.take_unarmed h]
  exact (State.choice_readyChoice _ t).orders.trans (s.cutting_stage t i f l).orders

theorem State.take_looks (i : Slot) (f : Frame) (l : List Slot) : (s.take t i f l).looks = s.looks := by
  rw [State.take_unarmed h]
  exact (State.choice_readyChoice _ t).aside.looks.trans (s.cutting_stage t i f l).aside.looks

theorem State.take_otherTrack {v : Track} (hv : v ≠ t) (i : Slot) (f : Frame) (l : List Slot) :
    (s.take t i f l).track v = s.track v := by
  rw [State.take_unarmed h, State.takeClose_track_ne _ hv, (State.choice_readyChoice _ t).otherTrack v hv, s.cutting_track_ne hv]

theorem State.take_prompter (hl : i ∉ l) (ho : (s.track t).onAir ≠ some i) : (s.take t i f l).prompterTx =
    ((s.slot i).airFrames t ++ (((s.take t i f l).track t).ready.bind
      (fun r => (s.slot r).fields.script.map (fun f => OutFrame.loadScript f t))).toList).foldl Transmit.push s.prompterTx := by
  have hr : ((s.cutting t i f l).track t).ready = none := by rw [s.cutting_track_self]
  have hp : (s.take t i f l).prompterTx = ((s.cutting t i f l).readyChoice t).prompterTx := by rw [State.take_unarmed h]; rfl
  rw [hp, State.readyChoice_prompterTx hr, State.take_ready h, State.cutting_prompterTx hl ho, List.foldl_append]
  simp only [State.cutting_fields]

theorem State.take_other (hi : j ≠ i) (ho : (s.track t).onAir ≠ some j) (hl : j ∉ l) :
    (s.slot j).Alike ((s.take t i f l).slot j) := by
  rw [State.take_slot h]
  exact (State.cutting_other (f := f) hi ho hl).alike.trans ((State.choice_readyChoice _ t).items j)

end

/-- What a take leaves (R46 to R49). -/
theorem State.tookItem_take (s : State) (t : Track) (i : Slot) (f : Frame) (l : List Slot) :
    s.TookItem (s.take t i f l) t i f l where
  stages := ⟨s.cutting t i f l, s.cutTo_cutting t i f l, rfl⟩
  track := s.take_track t i f l
  otherTrack := fun h _ hv => State.take_otherTrack h hv i f l
  event := s.take_event t i f l
  flags := (s.run_take t i f l).flags
  aside := (s.run_take t i f l).aside
  looks := (s.run_take t i f l).looks
  unedited := fun h => State.take_looks h i f l
  cut := s.take_cut t i f l
  status := s.take_status t i f l
  completion := s.take_readsDone t i f l
  groups := s.take_groups t i f l
  otherGroups := fun _ hg => s.take_otherGroups t i f l hg
  queue := s.take_queue t i f l
  groupDone := s.take_groupDone t i f l
  incoming := State.take_incoming
  outgoing := fun h _ ho hi hl => State.take_outgoing h ho hi hl
  passed := fun h _ hj hi => State.take_passed h hj hi
  orders := fun h => State.take_orders h i f l
  prompter := fun h hl ho => State.take_prompter h hl ho
  others := fun h _ hi ho hl => State.take_other h hi ho hl

/-! ### What precedes a take -/

section
variable (hv : v = s.atTake v t)
include hv

theorem State.track_of_atTake : v.track t = { s.track t with lockoutCount := (v.track t).lockoutCount } :=
  (congrArg (fun x : State => x.track t) hv).trans (State.setTrack_track_self _ _ _)

theorem State.otherTrack_of_atTake {r : Track} (hr : r ≠ t) : v.track r = s.track r := by
  rw [hv]; exact State.setTrack_track_ne _ _ _ hr

theorem State.onAir_of_atTake : (v.track t).onAir = (s.track t).onAir := by rw [State.track_of_atTake hv]

theorem State.slots_of_atTake : v.slots = s.slots := by rw [hv]; rfl

theorem State.slot_of_atTake (j : Slot) : v.slot j = s.slot j := by rw [hv]; rfl

theorem State.flags_of_atTake : v.flags = s.flags := by rw [hv]; rfl

theorem State.status_of_atTake : v.status = s.status := by rw [hv]; rfl

theorem State.orders_of_atTake : v.orders = s.orders := by rw [hv]; rfl

theorem State.groups_of_atTake : v.groups = s.groups := by rw [hv]; rfl

theorem State.armed_of_atTake : v.armed = s.armed := by rw [hv]; rfl

theorem State.group_of_atTake (g : GroupNo) : v.group g = s.group g := by rw [hv]; rfl

theorem State.armedQueue_of_atTake (r : Track) : v.armedQueue r = s.armedQueue r := by rw [hv]; rfl

theorem State.readsDone_of_atTake : v.readsDone = s.readsDone := by rw [hv]; rfl

theorem State.prompterTx_of_atTake : v.prompterTx = s.prompterTx := by rw [hv]; rfl

theorem State.looks_of_atTake : v.looks = s.looks := by rw [hv]; rfl

theorem State.due_of_atTake : v.due = s.due := by rw [hv]; rfl

theorem State.sfc_of_atTake : v.sfc = s.sfc := by rw [hv]; rfl

theorem State.completionOf_of_atTake (o : Slot) : v.completionOf o f = s.completionOf o f := by
  rw [State.completionOf, State.slot_of_atTake hv]; rfl

/-- The lockout count and the marks that a take finds may have been counted, and a transaction's bytes shifted out. -/
theorem State.CutTo.preceded (h : v.CutTo w t i f l) : s.CutTo w t i f l where
  track := by rw [h.track, State.track_of_atTake hv]
  otherTrack r hr := (h.otherTrack r hr).trans (State.otherTrack_of_atTake hv hr)
  aside := by
    refine State.Aside.trans ?_ h.aside
    rw [hv]; constructor <;> rfl
  flags := State.flags_of_atTake hv ▸ h.flags
  status := h.status.trans (State.status_of_atTake hv)
  orders := h.orders.trans (State.orders_of_atTake hv)
  groups := h.groups.trans (State.groups_of_atTake hv)
  armed := h.armed.trans (State.armed_of_atTake hv)
  completion := by
    rw [h.completion, State.onAir_of_atTake hv, funext (State.completionOf_of_atTake hv), State.readsDone_of_atTake hv]
  incoming := by rw [← State.onAir_of_atTake hv, ← State.slot_of_atTake hv i]; exact h.incoming
  outgoing o := by
    rw [← State.onAir_of_atTake hv, ← State.slot_of_atTake hv o, ← State.completionOf_of_atTake hv]; exact h.outgoing o
  passed := h.passed
  prompter := by
    rw [← State.onAir_of_atTake hv, ← State.slot_of_atTake hv i, ← State.prompterTx_of_atTake hv]; exact h.prompter
  others j := by rw [← State.onAir_of_atTake hv, ← State.slot_of_atTake hv j]; exact h.others j
  cues hq := by
    have hat : v.atTake w t = s.atTake w t := by
      rw [State.atTake, State.track_of_atTake hv, hv]
      simp only [State.atTake, State.setTrack, PerTrack.set_set]
    rw [← hat]
    exact h.cues (by rw [hv]; exact hq)

/-- A take tells the same of the state that its first stage found and of the state before, where the mark the take sets stands over what
the frame work had done to it. -/
theorem State.TookItem.preceded (hcut : ∀ b, v.cut.set t b = s.cut.set t b) (h : v.TookItem u t i f l) : s.TookItem u t i f l where
  stages := by
    obtain ⟨w, hw, hu⟩ := h.stages
    exact ⟨w, hw.preceded hv, State.slots_of_atTake hv ▸ hu⟩
  track := by rw [h.track, State.track_of_atTake hv, State.sfc_of_atTake hv]
  otherTrack ha r hr := (h.otherTrack (by rwa [State.armedQueue_of_atTake hv]) r hr).trans
    (State.otherTrack_of_atTake hv hr)
  event := h.event
  flags := State.flags_of_atTake hv ▸ h.flags
  aside := by
    refine State.Aside.trans ?_ h.aside
    rw [hv]; constructor <;> rfl
  looks r := by
    have := h.looks r
    rwa [State.look, State.looks_of_atTake hv] at this
  unedited ha := by
    rw [← State.looks_of_atTake hv]
    exact h.unedited (by rwa [State.armedQueue_of_atTake hv])
  cut := by rw [h.cut, hcut, State.due_of_atTake hv]
  status := h.status.trans (State.status_of_atTake hv)
  completion := by
    rw [h.completion, State.onAir_of_atTake hv, funext (State.completionOf_of_atTake hv), State.readsDone_of_atTake hv]
  groups g hg := by
    rw [← State.group_of_atTake hv]
    exact h.groups g (by rwa [State.armedQueue_of_atTake hv])
  otherGroups g hg := (h.otherGroups g (by rwa [State.armedQueue_of_atTake hv])).trans (State.group_of_atTake hv g)
  queue := by
    have := h.queue
    simp only [State.armedQueue_of_atTake hv, State.group_of_atTake hv] at this
    exact this
  groupDone ha := h.groupDone (by rwa [State.armedQueue_of_atTake hv])
  incoming ha := by
    rw [← State.onAir_of_atTake hv, ← State.slot_of_atTake hv i]
    exact h.incoming (by rwa [State.armedQueue_of_atTake hv])
  outgoing ha o := by
    rw [← State.onAir_of_atTake hv, ← State.slot_of_atTake hv o, ← State.completionOf_of_atTake hv]
    exact h.outgoing (by rwa [State.armedQueue_of_atTake hv]) o
  passed ha := h.passed (by rwa [State.armedQueue_of_atTake hv])
  orders ha := (h.orders (by rwa [State.armedQueue_of_atTake hv])).trans (State.orders_of_atTake hv)
  prompter ha := by
    have := h.prompter (by rwa [State.armedQueue_of_atTake hv])
    simp only [State.slot_of_atTake hv, State.onAir_of_atTake hv, State.prompterTx_of_atTake hv] at this
    exact this
  others ha j := by
    rw [← State.onAir_of_atTake hv, ← State.slot_of_atTake hv j]
    exact h.others (by rwa [State.armedQueue_of_atTake hv]) j

end

end Sys2Proof.Machine
end

section
/-! PROOFS. TRACK.TAKE (R46 to R50). -/

namespace Sys2Proof.Machine

variable {s u : State} {t : Track} {i : Slot} {f : Frame} {l : List Slot} {b : Buffer}

/-- What a transaction shifts out, and the answer in the buffer, stand as the first stage of a take finds them. -/
theorem State.atTake_answering (s : State) (n : Nat) (b : Buffer) (t : Track) :
    (s.select n).withBuffer b = s.atTake ((s.select n).withBuffer b) t :=
  congrArg (fun p => { (s.select n).withBuffer b with tracks := p }) (PerTrack.set_get s.tracks t).symm

/-- A take asked for by a transaction is a take of the state before it. -/
theorem State.tookItem_answering (s : State) (n : Nat) (b : Buffer) (t : Track) (i : Slot) (f : Frame) (l : List Slot) :
    s.TookItem (((s.select n).take t i f l).withBuffer b) t i f l := by
  rw [← State.withBuffer_take]
  exact .preceded (s.atTake_answering n b t) (fun _ => rfl) (State.tookItem_take _ t i f l)

/-- The state after a TRACK.TAKE that is accepted, with its answer. -/
def State.takeAnswered (s : State) (t : Track) (i : Slot) : State :=
  ((s.select 2).ordinaryTake t i).withBuffer
    (.ready ⟨.ok, .taken (((s.select 2).ordinaryTake t i).takeReport (s.select 2) t)⟩)

theorem exec_trackTake_takes (hp : s.portFree) (hl : (s.track t).lockoutCount = 0) (hr : (s.track t).ready = some i) :
    exec (.trackTake (trackCode t)) s = .next (s.takeAnswered t i) := by
  have h : ((s.select 2).track t).ready = some i := hr
  have h0 : ¬0 < ((s.select 2).track t).lockoutCount := Nat.not_lt.mpr (Nat.le_zero.mpr hl)
  rw [exec_trackTake hp, State.serveTake, trackOf_code, State.ranged_some, if_neg h0]
  simp only [h]
  rfl

theorem exec_trackTake_range (hp : s.portFree) {n : Nat} (h : 2 ≤ n) :
    exec (.trackTake n) s = .next (s.answeredWith 2 .range .empty) := by
  rw [exec_trackTake hp, State.serveTake, trackOf_of_le h, State.ranged_none, State.refuse_buffered]

theorem exec_trackTake_tooSoon (hp : s.portFree) (hl : 0 < (s.track t).lockoutCount) :
    exec (.trackTake (trackCode t)) s = .next (s.answeredWith 2 .tooSoon .empty) := by
  have h : 0 < ((s.select 2).track t).lockoutCount := hl
  rw [exec_trackTake hp, State.serveTake, trackOf_code, State.ranged_some, if_pos h, State.refuse_buffered]

theorem exec_trackTake_noNext (hp : s.portFree) (hl : (s.track t).lockoutCount = 0) (hr : (s.track t).ready = none) :
    exec (.trackTake (trackCode t)) s = .next (s.answeredWith 2 .noNext .empty) := by
  have h : ((s.select 2).track t).ready = none := hr
  have h0 : ¬0 < ((s.select 2).track t).lockoutCount := Nat.not_lt.mpr (Nat.le_zero.mpr hl)
  rw [exec_trackTake hp, State.serveTake, trackOf_code, State.ranged_some, if_neg h0]
  simp only [h]
  rfl

theorem State.tookItem_takeAnswered (s : State) (t : Track) (i : Slot) :
    s.TookItem (s.takeAnswered t i) t i (frameAdd s.sfc (s.track t).takeDelay) [] := s.tookItem_answering 2 _ t i _ []

/-- The answer of a take names the item the take puts on air, and the item on air before it with its actual (R50). -/
theorem State.takeReport_takeAnswered (s : State) (t : Track) (i : Slot) :
    ((s.select 2).ordinaryTake t i).takeReport (s.select 2) t =
      ⟨some i, ((s.takeAnswered t i).slot i).start, (s.track t).onAir,
        (s.track t).onAir.map (fun o => (s.completionOf o (frameAdd s.sfc (s.track t).takeDelay)).actual),
        ((s.takeAnswered t i).track t).ready⟩ := by
  have h : (((s.select 2).ordinaryTake t i).track t).onAir = some i := by rw [State.ordinaryTake, State.take_track]
  rw [State.takeReport, h]
  rfl

theorem State.answers_takeAnswered (s : State) (t : Track) (i : Slot) : s.Answers (s.takeAnswered t i) 2 .ok
    (.taken ⟨some i, ((s.takeAnswered t i).slot i).start, (s.track t).onAir,
      (s.track t).onAir.map (fun o => (s.completionOf o (frameAdd s.sfc (s.track t).takeDelay)).actual),
      ((s.takeAnswered t i).track t).ready⟩) := by
  have h := (s.select 2).run_take t i ((s.select 2).startIn t) []
  rw [← s.takeReport_takeAnswered]
  exact ⟨h.sdoStatus, h.sdo, rfl⟩

end Sys2Proof.Machine

namespace Sys2Proof

open Sys2Proof.Machine

/-- Settles O25: an answered take is a take of the state whose bytes are shifted out and whose buffer holds the answer. -/
theorem trackTakePutsTheReadyItemOnAir : Obligations.TrackTakePutsTheReadyItemOnAir := by
  intro s t hp
  exact ⟨fun n h => exec_trackTake_range hp h, fun h => exec_trackTake_tooSoon hp h, fun hl h => exec_trackTake_noNext hp hl h,
    fun i hl hr => ⟨_, exec_trackTake_takes hp hl hr, s.tookItem_takeAnswered t i, s.answers_takeAnswered t i⟩⟩

end Sys2Proof
end

section
/-! SUPPORT. The sequencer's frame work: the lockout it counts, the hard-in watch and the auto-take (R49, R51 to R53). -/

namespace Sys2Proof.Machine

variable {s u : State} {t : Track} {i j r : Slot} {f h : Frame} {w : FrameWork} {occurs : State → Bool}

/-! ### Frame work as a command -/

/-- The state as the frame work of a block finds it: that work is no longer due (R62). -/
def State.atWork (s : State) (w : FrameWork) : State := s.setDue (s.due.erase w)

@[simp] theorem State.atWork_track (w : FrameWork) (t : Track) : (s.atWork w).track t = s.track t := rfl

theorem State.work_occurs (hh : s.held = false) (hd : w ∈ s.due) (ho : occurs (s.atWork w) = true) :
    s.unlessHeld (fun s => s.workWhen w occurs) = (s.atWork w).runWork w := by
  rw [State.unlessHeld_free hh, State.workWhen_due hd ho]; rfl

theorem State.work_waits (hh : s.held = false) (ho : occurs (s.atWork w) = false) :
    s.unlessHeld (fun s => s.workWhen w occurs) = s := by
  rw [State.unlessHeld_free hh, State.workWhen_not ho]

/-! ### The lockout (R49) -/

theorem State.lockoutEnds_iff : s.lockoutEnds t = true ↔ s.cut.get t = false ∧ (s.track t).lockoutCount = 1 := by
  simp [State.lockoutEnds]

theorem State.beginSequencer_cut (hc : s.cut.get t = true) : s.beginSequencer t = s.setCut (s.cut.set t false) := by
  rw [State.beginSequencer, if_pos hc]

theorem State.beginSequencer_counts (hc : s.cut.get t = false) : s.beginSequencer t = s.countLockout t := by
  rw [State.beginSequencer, if_neg (by rw [hc]; nofun)]

theorem State.countLockout_track (s : State) (t : Track) :
    (s.countLockout t).track t = { s.track t with lockoutCount := (s.track t).lockoutCount - 1 } := s.setTrack_track_self t _

/-- The first step of the frame work leaves the track's record but for its lockout count. -/
theorem State.beginSequencer_track (s : State) (t : Track) : (s.beginSequencer t).track t =
    { s.track t with lockoutCount := ((s.beginSequencer t).track t).lockoutCount } := by
  cases hc : s.cut.get t with
  | true => rw [State.beginSequencer_cut hc]; rfl
  | false => rw [State.beginSequencer_counts hc, State.countLockout_track]

/-- The first step of the frame work is as the first stage of a take finds it. -/
theorem State.atTake_beginSequencer (s : State) (t : Track) : s.beginSequencer t = s.atTake (s.beginSequencer t) t := by
  cases hc : s.cut.get t with
  | true =>
    rw [State.beginSequencer_cut hc]
    exact congrArg (fun p => { s.setCut (s.cut.set t false) with tracks := p }) (PerTrack.set_get s.tracks t).symm
  | false =>
    rw [State.beginSequencer_counts hc, State.atTake, State.countLockout_track]
    rfl

theorem State.beginSequencer_setCut (s : State) (t : Track) (b : Bool) : (s.beginSequencer t).cut.set t b = s.cut.set t b := by
  cases hc : s.cut.get t with
  | true => rw [State.beginSequencer_cut hc]; exact PerTrack.set_set _ _ _ _
  | false => rw [State.beginSequencer_counts hc]; rfl

/-- A take that the frame work makes is a take of the state before its first step. -/
theorem State.tookItem_beginSequencer (s : State) (t : Track) (i : Slot) (f : Frame) (l : List Slot) :
    s.TookItem ((s.beginSequencer t).take t i f l) t i f l :=
  .preceded (s.atTake_beginSequencer t) (s.beginSequencer_setCut t) (State.tookItem_take _ t i f l)

/-! ### The hard-in watch (R52) -/

theorem State.atTake_candidates {v : State} (hv : v = s.atTake v t) : v.candidates t = s.candidates t :=
  State.candidates_congr (State.orders_of_atTake hv) (State.onAir_of_atTake hv) fun i => by
    rw [State.isCandidate, State.isCandidate, State.slot_of_atTake hv, State.track_of_atTake hv]

theorem State.beginSequencer_hardInDue (s : State) (t : Track) : (s.beginSequencer t).hardInDue t = s.hardInDue t := by
  unfold State.beginSequencer
  split <;> rfl

/-- What the hard-in watch finds does not depend on the lockout. -/
theorem State.beginSequencer_hardInItem (s : State) (t : Track) : (s.beginSequencer t).hardInItem t = s.hardInItem t := by
  rw [State.hardInItem, State.beginSequencer_hardInDue, State.atTake_candidates (s.atTake_beginSequencer t)]
  rfl

theorem State.hardInFalls_eq (s : State) (t : Track) : s.hardInFalls t = (s.hardInItem t).isSome := by
  rw [State.hardInFalls, State.beginSequencer_hardInItem]

/-- An item the watch sees is due as soon as its hard-in, less the take delay, is reached. -/
theorem State.Watches.hardInDue_eq (hw : s.Watches t i h) :
    s.hardInDue t i = s.reachedAtWork (frameSub h (s.look t).takeDelay) := by
  obtain ⟨-, hh⟩ := hw
  simp only [State.hardInDue, hh]

theorem State.hardInDue_watches (hi : i ∈ s.candidates t) (hd : s.hardInDue t i = true) :
    ∃ h, s.Watches t i h ∧ s.reachedAtWork (frameSub h (s.look t).takeDelay) = true := by
  obtain ⟨h, hh, hr⟩ := State.hardInDue_iff.mp hd
  exact ⟨h, ⟨hi, hh⟩, hr⟩

theorem State.hardInItem_none (hn : ∀ j h, s.Watches t j h → s.reachedAtWork (frameSub h (s.look t).takeDelay) = false) :
    s.hardInItem t = none := by
  rw [State.hardInItem, List.getLast?_eq_none_iff, List.filter_eq_nil_iff]
  intro i hi hd
  obtain ⟨h, hw, hr⟩ := State.hardInDue_watches hi hd
  rw [hn i h hw] at hr
  nomatch hr

theorem State.hardInItem_some (hw : s.Watches t i h) (hr : s.reachedAtWork (frameSub h (s.look t).takeDelay) = true) :
    (s.hardInItem t).isSome = true := by
  have hm : i ∈ (s.candidates t).filter (s.hardInDue t) := List.mem_filter.mpr ⟨hw.1, hw.hardInDue_eq.trans hr⟩
  rw [State.hardInItem, Option.isSome_iff_ne_none, Ne, List.getLast?_eq_none_iff]
  exact List.ne_nil_of_mem hm

/-- The due item after which no item is due is the one the watch takes. -/
theorem State.hardInItem_latest {before after : List Slot} (hl : s.afterOnAir t = before ++ i :: after) (hw : s.Watches t i h)
    (hr : s.reachedAtWork (frameSub h (s.look t).takeDelay) = true)
    (ha : ∀ j h', j ∈ after → s.Watches t j h' → s.reachedAtWork (frameSub h' (s.look t).takeDelay) = false) :
    s.hardInItem t = some i := by
  have hafter : (after.filter (s.isCandidate t)).filter (s.hardInDue t) = [] := by
    rw [List.filter_eq_nil_iff]
    intro j hj hd
    obtain ⟨hj, hc⟩ := List.mem_filter.mp hj
    have hm : j ∈ s.afterOnAir t := by rw [hl]; exact List.mem_append_right _ (List.mem_cons_of_mem _ hj)
    obtain ⟨h', hw', hr'⟩ := State.hardInDue_watches (State.mem_candidates.mpr ⟨hm, hc⟩) hd
    rw [ha j h' hj hw'] at hr'
    nomatch hr'
  have hc : s.isCandidate t i = true := (State.mem_candidates.mp hw.1).2
  have hd : s.hardInDue t i = true := hw.hardInDue_eq.trans hr
  rw [State.hardInItem, State.candidates, hl, List.filter_append, List.filter_cons_of_pos hc, List.filter_append,
    List.filter_cons_of_pos hd, hafter, List.getLast?_concat]

theorem State.passedOver_eq {before after : List Slot} (hl : s.afterOnAir t = before ++ i :: after) (hi : i ∉ before) :
    s.passedOver t i = before.filter (fun j => decide ((s.slot j).state = .ready) || decide ((s.slot j).state = .planned)) := by
  have hb : ∀ j ∈ before, decide (j ≠ i) = true := fun j hj => decide_eq_true (fun e => hi (e ▸ hj))
  rw [State.passedOver, hl, List.takeWhile_append_of_pos hb, List.takeWhile_cons_of_neg (by simp), List.append_nil]

theorem State.atTake_passedOver {v : State} (hv : v = s.atTake v t) (i : Slot) : v.passedOver t i = s.passedOver t i := by
  have ha : v.afterOnAir t = s.afterOnAir t := by
    rw [State.afterOnAir, State.afterOnAir, State.onAir_of_atTake hv, State.order, State.orders_of_atTake hv]
    rfl
  rw [State.passedOver, State.passedOver, ha]
  simp only [State.slot_of_atTake hv]

/-! ### The auto-take (R51) -/

theorem State.autoTakeItem_iff : s.autoTakeItem t = some r ↔
    (∃ o, (s.track t).onAir = some o ∧ (s.slot o).fields.auto = true ∧
      s.reachedAtWork (frameSub (frameAdd ((s.slot o).start.getD s.sfc) (s.base (s.slot o))) (s.look t).takeDelay) = true) ∧
    (s.look t).auto = true ∧ (s.look t).hostHold = false ∧ s.effectiveHold t = false ∧ (s.track t).lockoutCount = 0 ∧
    (s.track t).ready = some r := by
  unfold State.autoTakeItem State.autoFrame Look.autoFree
  cases ho : (s.track t).onAir with
  | none => simp
  | some o => cases ha : (s.slot o).fields.auto <;> simp [ha, and_assoc]

/-- The auto-take is looked at with the lockout counted. -/
theorem State.autoLook_iff : s.autoLook t = some r ↔ s.cut.get t = false ∧
    (∃ o, (s.track t).onAir = some o ∧ (s.slot o).fields.auto = true ∧
      s.reachedAtWork (frameSub (frameAdd ((s.slot o).start.getD s.sfc) (s.base (s.slot o))) (s.look t).takeDelay) = true) ∧
    (s.look t).auto = true ∧ (s.look t).hostHold = false ∧ s.effectiveHold t = false ∧ (s.track t).lockoutCount ≤ 1 ∧
    (s.track t).ready = some r := by
  have hh : (s.countLockout t).effectiveHold t = s.effectiveHold t := by
    rw [State.effectiveHold, State.countLockout_track]; rfl
  have hc := State.autoTakeItem_iff (s := s.countLockout t) (t := t) (r := r)
  rw [hh, State.countLockout_track, Nat.sub_eq_zero_iff_le] at hc
  unfold State.autoLook
  cases hcut : s.cut.get t with
  | true => simp
  | false =>
    rw [if_neg Bool.false_ne_true, hc]
    exact (and_iff_right rfl).symm

/-! ### The frame work (R53) -/

theorem State.sequencerWork_hardIn (hi : s.hardInItem t = some i) :
    s.sequencerWork t = (s.beginSequencer t).take t i ((s.watchedHardIn t i).getD s.sfc) (s.passedOver t i) := by
  have hw : (s.beginSequencer t).watchedHardIn t i = s.watchedHardIn t i := by unfold State.beginSequencer; split <;> rfl
  have hf : (s.beginSequencer t).sfc = s.sfc := State.sfc_of_atTake (s.atTake_beginSequencer t)
  rw [← hw, ← hf, ← State.atTake_passedOver (s.atTake_beginSequencer t) i]
  simp only [State.sequencerWork, State.beginSequencer_hardInItem, hi]
  rfl

theorem State.sequencerWork_auto (hi : s.hardInItem t = none) (ha : s.autoLook t = some r) :
    s.sequencerWork t = (s.beginSequencer t).take t r (frameAdd s.sfc (s.track t).takeDelay) [] := by
  have hf : (s.beginSequencer t).startIn t = frameAdd s.sfc (s.track t).takeDelay := by
    rw [State.startIn, State.beginSequencer_track, State.sfc_of_atTake (s.atTake_beginSequencer t)]
  rw [← hf]
  simp only [State.sequencerWork, State.beginSequencer_hardInItem, hi, ha]
  rfl

theorem State.sequencerWork_idle (hi : s.hardInItem t = none) (ha : s.autoLook t = none) :
    s.sequencerWork t = s.beginSequencer t := by
  simp only [State.sequencerWork, State.beginSequencer_hardInItem, hi, ha]

theorem State.autoFalls_eq (s : State) (t : Track) : s.autoFalls t = ((s.hardInItem t).isNone && (s.autoLook t).isSome) := by
  rw [State.autoFalls, State.hardInFalls_eq]
  cases s.hardInItem t <;> rfl

end Sys2Proof.Machine
end

section
/-! PROOFS. The auto-take and the lockout (R49, R51, R53). -/

namespace Sys2Proof.Machine

variable {s u : State} {t : Track} {i j r o : Slot} {f h : Frame} {occurs : State → Bool}

/-! ### The commands of the sequencer's frame work -/

section
variable (hh : s.held = false) (hd : .sequencer t ∈ s.due)
include hh hd

theorem exec_hardInTake_falls (ho : (s.hardInItem t).isSome = true) :
    exec (.hardInTake t) s = .next ((s.atWork (.sequencer t)).runWork (.sequencer t)) :=
  congrArg Host.Outcome.next (State.work_occurs hh hd ((State.hardInFalls_eq _ t).trans ho))

theorem exec_autoTake_falls (hi : s.hardInItem t = none) (ha : (s.autoLook t).isSome = true) :
    exec (.autoTake t) s = .next ((s.atWork (.sequencer t)).runWork (.sequencer t)) := by
  have ho : (s.atWork (.sequencer t)).autoFalls t = true := by
    rw [State.autoFalls_eq, Bool.and_eq_true, Option.isNone_iff_eq_none]
    exact ⟨hi, ha⟩
  exact congrArg Host.Outcome.next (State.work_occurs hh hd ho)

theorem exec_lockoutExpiry_ends (hc : s.cut.get t = false) (hl : (s.track t).lockoutCount = 1) :
    exec (.lockoutExpiry t) s = .next ((s.atWork (.sequencer t)).runWork (.sequencer t)) := by
  have ho : (s.atWork (.sequencer t)).lockoutEnds t = true := State.lockoutEnds_iff.mpr ⟨hc, hl⟩
  exact congrArg Host.Outcome.next (State.work_occurs hh hd ho)

end

theorem exec_hardInTake_waits (hh : s.held = false) (hi : s.hardInItem t = none) : exec (.hardInTake t) s = .next s := by
  have ho : (s.atWork (.sequencer t)).hardInFalls t = false := by
    rw [State.hardInFalls_eq, Option.isSome_eq_false_iff, Option.isNone_iff_eq_none]
    exact hi
  exact congrArg Host.Outcome.next (State.work_waits hh ho)

/-- No auto-take where a hard-in is due, or where a condition is missing (R51, R53). -/
theorem exec_autoTake_waits (hh : s.held = false) (h : (s.hardInItem t).isSome = true ∨ s.autoLook t = none) :
    exec (.autoTake t) s = .next s := by
  have ho : (s.atWork (.sequencer t)).autoFalls t = false := by
    rw [State.autoFalls_eq, Bool.and_eq_false_iff, Option.isNone_eq_false_iff, Option.isSome_eq_false_iff,
      Option.isNone_iff_eq_none]
    exact h
  exact congrArg Host.Outcome.next (State.work_waits hh ho)

theorem exec_lockoutExpiry_waits (hh : s.held = false) (hc : s.cut.get t = true) : exec (.lockoutExpiry t) s = .next s := by
  have ho : (s.atWork (.sequencer t)).lockoutEnds t = false := by
    rw [← Bool.not_eq_true, State.lockoutEnds_iff]
    rintro ⟨h, -⟩
    exact absurd (hc.symm.trans h) (by nofun)
  exact congrArg Host.Outcome.next (State.work_waits hh ho)

/-! ### What the frame work makes -/

theorem State.runWork_sequencer (s : State) (t : Track) : s.runWork (.sequencer t) = s.sequencerWork t := rfl

/-- The take that the hard-in watch makes is of the state with the work no longer due (R52). -/
theorem State.hardIn_tookItem {before after : List Slot} (hl : s.afterOnAir t = before ++ i :: after) (hn : i ∉ before)
    (hw : s.Watches t i h) (hi : s.hardInItem t = some i) :
    (s.atWork (.sequencer t)).TookItem ((s.atWork (.sequencer t)).runWork (.sequencer t)) t i h
      (before.filter (fun j => decide ((s.slot j).state = .ready) || decide ((s.slot j).state = .planned))) := by
  have hx : (s.atWork (.sequencer t)).sequencerWork t = _ := State.sequencerWork_hardIn hi
  have hp : (s.atWork (.sequencer t)).passedOver t i = _ := State.passedOver_eq hl hn
  have hf : ((s.atWork (.sequencer t)).watchedHardIn t i).getD (s.atWork (.sequencer t)).sfc = h :=
    congrArg (Option.getD · s.sfc) hw.2
  rw [hp, hf] at hx
  rw [State.runWork_sequencer, hx]
  exact (s.atWork (.sequencer t)).tookItem_beginSequencer t i h
    (before.filter (fun j => decide ((s.slot j).state = .ready) || decide ((s.slot j).state = .planned)))

/-- The auto-take of the frame work is of the state with the work no longer due (R51). -/
theorem State.auto_tookItem (hi : s.hardInItem t = none) (ha : s.autoLook t = some r) :
    (s.atWork (.sequencer t)).TookItem ((s.atWork (.sequencer t)).runWork (.sequencer t)) t r
      (frameAdd s.sfc (s.track t).takeDelay) [] := by
  have hx : (s.atWork (.sequencer t)).sequencerWork t =
      ((s.atWork (.sequencer t)).beginSequencer t).take t r (frameAdd s.sfc (s.track t).takeDelay) [] :=
    State.sequencerWork_auto hi ha
  rw [State.runWork_sequencer, hx]
  exact (s.atWork (.sequencer t)).tookItem_beginSequencer t r (frameAdd s.sfc (s.track t).takeDelay) []

/-- Frame work that follows a take of its frame event, with no hard-in due, takes the mark away (R49). -/
theorem State.sequencerWork_marked (hi : s.hardInItem t = none) (hc : s.cut.get t = true) :
    s.sequencerWork t = s.setCut (s.cut.set t false) := by
  have ha : s.autoLook t = none := by rw [State.autoLook, if_pos hc]
  rw [State.sequencerWork_idle hi ha, State.beginSequencer_cut hc]

/-- Frame work that makes no take counts the lockout (R49). -/
theorem State.sequencerWork_counts (hi : s.hardInItem t = none) (ha : s.autoLook t = none) (hc : s.cut.get t = false) :
    s.sequencerWork t = s.setTrack t { s.track t with lockoutCount := (s.track t).lockoutCount - 1 } := by
  rw [State.sequencerWork_idle hi ha, State.beginSequencer_counts hc]; rfl

/-- A condition of the auto-take that is missing holds it back (R51). -/
theorem State.autoLook_none
    (h : (s.track t).onAir = none ∨ (∃ o, (s.track t).onAir = some o ∧ ((s.slot o).fields.auto = false ∨
        ∃ start, (s.slot o).start = some start ∧
          s.reachedAtWork (frameSub (frameAdd start (s.base (s.slot o))) (s.look t).takeDelay) = false)) ∨
      (s.look t).auto = false ∨ (s.look t).hostHold = true ∨ s.effectiveHold t = true ∨ 2 ≤ (s.track t).lockoutCount ∨
      (s.track t).ready = none) : s.autoLook t = none := by
  rw [Option.eq_none_iff_forall_ne_some]
  intro r hr
  obtain ⟨-, ⟨o, ho, hauto, hreached⟩, hla, hlh, hhold, hcount, hready⟩ := State.autoLook_iff.mp hr
  rcases h with h | ⟨o', ho', h⟩ | h | h | h | h | h
  · rw [ho] at h; nomatch h
  · obtain rfl : o = o' := Option.some.inj (ho.symm.trans ho')
    rcases h with h | ⟨start, hs, h⟩
    · rw [hauto] at h; nomatch h
    · rw [hs, Option.getD_some, h] at hreached; nomatch hreached
  · rw [hla] at h; nomatch h
  · rw [hlh] at h; nomatch h
  · rw [hhold] at h; nomatch h
  · omega
  · rw [hready] at h; nomatch h

end Sys2Proof.Machine

namespace Sys2Proof

open Sys2Proof.Machine

/-- Settles O30: what the frame work makes, by whether an item watched is due and whether each condition of the auto-take holds. -/
theorem autoTakeAndLockoutFollowTheFrameWork : Obligations.AutoTakeAndLockoutFollowTheFrameWork := by
  intro s t hh hd
  refine ⟨fun j h hw hr hc hl => ?_, fun hn => ?_⟩
  · exact ⟨_, exec_lockoutExpiry_ends hh hd hc hl, exec_hardInTake_falls hh hd (State.hardInItem_some hw hr), rfl⟩
  have hi : s.hardInItem t = none := State.hardInItem_none hn
  refine ⟨fun hc => ?_, fun o r start hc ho hauto hs hla hlh hr hhold hl hready => ?_, fun hc h => ?_⟩
  · have ha : s.autoLook t = none := by rw [State.autoLook, if_pos hc]
    exact ⟨exec_autoTake_waits hh (.inr ha), exec_lockoutExpiry_waits hh hc, State.sequencerWork_marked hi hc⟩
  · have ha : s.autoLook t = some r :=
      State.autoLook_iff.mpr ⟨hc, ⟨o, ho, hauto, by rw [hs]; exact hr⟩, hla, hlh, hhold, hl, hready⟩
    exact ⟨_, exec_autoTake_falls hh hd hi (by rw [ha]; rfl), exec_lockoutExpiry_ends hh hd hc, State.auto_tookItem hi ha⟩
  · have ha := State.autoLook_none h
    refine ⟨exec_autoTake_waits hh (.inr ha), State.sequencerWork_counts hi ha hc, fun hl => ?_⟩
    have hw : (s.atWork (.sequencer t)).sequencerWork t = _ := State.sequencerWork_counts hi ha hc
    rw [exec_lockoutExpiry_ends hh hd hc hl]
    refine congrArg Host.Outcome.next (hw.trans ?_)
    rw [State.atWork_track, hl]
    rfl

end Sys2Proof
end

section
/-! SUPPORT. What a sequencer looks at stands from one frame event to the next: no other command but a reset gives it anything (R14, R41,
R42, R51, R52). -/

namespace Sys2Proof.Machine

variable {s u v : State} {r : Reply} {t : Track} {c : Chan}

/-! ### What is looked at -/

/-- The count that the last frame event left stands, and each sequencer looks at nothing new. -/
structure State.LooksOn (s u : State) : Prop where
  counted : u.counted = s.counted
  looks : ∀ t, (s.look t).Keeps (u.look t)

theorem State.LooksOn.of_eq (hc : u.counted = s.counted) (hl : u.looks = s.looks) : s.LooksOn u :=
  ⟨hc, fun t => by rw [State.look, State.look, hl]; exact .refl _⟩

theorem State.LooksOn.refl (s : State) : s.LooksOn s := .of_eq rfl rfl

theorem State.LooksOn.trans (a : s.LooksOn u) (b : u.LooksOn v) : s.LooksOn v :=
  ⟨b.counted.trans a.counted, fun t => (a.looks t).trans (b.looks t)⟩

theorem State.LooksOn.foldl {α : Type} {f : State → α → State} (h : ∀ (s : State) x, s.LooksOn (f s x)) (l : List α) (s : State) :
    s.LooksOn (l.foldl f s) := by
  induction l generalizing s with
  | nil => exact .refl s
  | cons x l ih => exact (h s x).trans (ih _)

theorem State.Aside.looksOn (h : s.Aside u) : s.LooksOn u := .of_eq h.counted h.looks

theorem State.CueLevel.looksOn (h : s.CueLevel u) : s.LooksOn u := h.aside.looksOn

theorem State.RunLevel.looksOn (h : s.RunLevel u) : s.LooksOn u := ⟨h.aside.counted, h.looks⟩

/-- The count and the looks of a part that a reset has cleared. -/
def State.LooksCleared (u : State) : Prop := u.counted = 0 ∧ u.looks = ⟨{}, {}⟩

/-- A command that is not a frame event leaves what is looked at, or clears it with the part. -/
def State.LooksOnOrCleared (s u : State) : Prop := s.LooksOn u ∨ u.LooksCleared

/-! ### Requests -/

/-- The state that a request's rule leaves looks at nothing new. -/
def Reply.LooksOn (s : State) (r : Reply) : Prop := s.LooksOn r.state

theorem Reply.LooksOn.refuse (s : State) (x : Result) : (s.refuse x).LooksOn s := State.LooksOn.refl s

theorem Reply.LooksOn.accept (b : Bool) (x : Body) (h : s.LooksOn u) : (u.accept b x).LooksOn s := h

theorem Reply.LooksOn.answer (s : State) (b : Bool) (x : Body) : (s.accept b x).LooksOn s := State.LooksOn.refl s

theorem Reply.LooksOn.ranged {α : Type} {v : Option α} {f : α → Reply} (h : ∀ x, (f x).LooksOn s) : (s.ranged v f).LooksOn s := by
  cases v with
  | none => exact .refuse s _
  | some x => exact h x

theorem Reply.LooksOn.checked {v : Option Result} (h : r.LooksOn s) : (s.checked v r).LooksOn s := by
  cases v with
  | none => exact h
  | some x => exact .refuse s _

theorem Reply.LooksOn.ite {p : Prop} [Decidable p] {a b : Reply} (ha : a.LooksOn s) (hb : b.LooksOn s) :
    (if p then a else b).LooksOn s := by
  split
  · exact ha
  · exact hb

theorem State.direct_looksOn (s : State) (e : Edit) : (s.direct e).LooksOn s :=
  .ranged fun e => .checked (.accept _ _ (s.run_makeDirect e).looksOn)

theorem State.serveItemFind_looksOn (s : State) (k : Nat) : (s.serveItemFind k).LooksOn s := by
  unfold State.serveItemFind
  refine .ite (.refuse s _) ?_
  split
  · exact .answer s _ _
  · exact .refuse s _

theorem State.serveEdit_looksOn (s : State) (g : Nat) (e : Edit) : (s.serveEdit g e).LooksOn s :=
  .ite (s.direct_looksOn e)
    (.ranged fun g => .ranged fun e => .checked (.accept _ _ (s.run_stage g e).looksOn))

theorem State.serveTake_looksOn (s : State) (t : Nat) : (s.serveTake t).LooksOn s :=
  .ranged fun t => .ite (.refuse s _) (by
    split
    · exact .refuse s _
    · exact .accept _ _ (s.run_ordinaryTake _ _).looksOn)

theorem State.serveSkip_looksOn (s : State) (t : Nat) : (s.serveSkip t).LooksOn s :=
  .ranged fun t => by
    split
    · exact .refuse s _
    · exact .accept _ _ (s.sequencer_skip _ _).run.looksOn

theorem State.serveTrackConfig_looksOn (s : State) (t f : Nat) (v : TrackSettings) : (s.serveTrackConfig t f v).LooksOn s :=
  .ranged fun t => .ite (.refuse s _) (.accept _ _ (by rw [State.newlySet_eq]; exact .of_eq rfl rfl))

theorem State.serveRouteRead_looksOn (s : State) (n : Nat) : (s.serveRouteRead n).LooksOn s := by
  unfold State.serveRouteRead
  exact .ite (.answer s _ _) (.ranged fun _ => .answer s _ _)

theorem State.servePartConfig_looksOn (s : State) (f : Nat) (v : PartSettings) : (s.servePartConfig f v).LooksOn s :=
  .ite (.refuse s _) (.ranged fun d => .accept _ _ (by rw [State.configureRate_eq]; exact .of_eq rfl rfl))

/-- A request leaves what is looked at, but for PART.RESET. -/
theorem State.serve_looksOn (s : State) {c : Instr} (h : c ≠ .partReset) : (s.serve c).LooksOn s := by
  cases c
  case itemCreate => simp only [State.serve]; exact s.direct_looksOn _
  case itemUpdate => simp only [State.serve]; exact s.direct_looksOn _
  case itemMove => simp only [State.serve]; exact s.direct_looksOn _
  case itemRetire => simp only [State.serve]; exact s.direct_looksOn _
  case itemRestore => simp only [State.serve]; exact s.direct_looksOn _
  case itemCues => simp only [State.serve]; exact s.direct_looksOn _
  case itemRead => simp only [State.serve]; exact .ranged fun _ => .ite (.answer s _ _) (.refuse s _)
  case itemFind => simp only [State.serve]; exact s.serveItemFind_looksOn _
  case rundownList => simp only [State.serve]; exact .ranged fun _ => .ranged fun _ => .answer s _ _
  case stagedEdit => simp only [State.serve]; exact s.serveEdit_looksOn _ _
  case groupOpen =>
    simp only [State.serve]
    exact .ranged fun _ => .ranged fun _ => .ite (.accept _ _ (.of_eq rfl rfl)) (.refuse s _)
  case groupLaunch =>
    simp only [State.serve]
    exact .ranged fun g => .ranged fun m => .ite (.accept _ _ (s.run_launchGroup g m).looksOn) (.refuse s _)
  case groupDiscard =>
    simp only [State.serve]
    exact .ranged fun g => .ite (.refuse s _) (.accept _ _ (s.run_discardGroup g).looksOn)
  case groupRead => simp only [State.serve]; exact .ranged fun _ => .answer s _ _
  case trackTake => simp only [State.serve]; exact s.serveTake_looksOn _
  case trackSkip => simp only [State.serve]; exact s.serveSkip_looksOn _
  case trackHold => simp only [State.serve]; exact .ranged fun _ => .ranged fun _ => .accept _ _ (.of_eq rfl rfl)
  case trackConfig => simp only [State.serve]; exact s.serveTrackConfig_looksOn _ _ _
  case trackRead => simp only [State.serve]; exact .ranged fun _ => .answer s _ _
  case trackReset => simp only [State.serve]; exact .ranged fun t => .accept _ _ (s.run_resetTrack t).looksOn
  case timeSet => simp only [State.serve]; exact .accept _ _ (.of_eq rfl rfl)
  case timeRead => simp only [State.serve]; exact .answer s _ _
  case presenterConfig => simp only [State.serve]; exact .ranged fun _ => .ite (.refuse s _) (.accept _ _ (.of_eq rfl rfl))
  case presenterSeed => simp only [State.serve]; exact .ranged fun _ => .accept _ _ (.of_eq rfl rfl)
  case presenterRead => simp only [State.serve]; exact .ranged fun _ => .answer s _ _
  case routeWrite =>
    simp only [State.serve]
    exact .ranged fun _ => .ite (.refuse s _) (.ranged fun _ => .accept _ _ (.of_eq rfl rfl))
  case routeRead => simp only [State.serve]; exact s.serveRouteRead_looksOn _
  case routeTest => simp only [State.serve]; exact .ranged fun _ => .ranged fun _ => .answer s _ _
  case channelConfig =>
    simp only [State.serve]
    exact .ranged fun _ => .ite (.refuse s _) (.accept _ _ (s.cueLevel_configureChannel _ _ _).looksOn)
  case channelClear => simp only [State.serve]; exact .ranged fun c => .accept _ _ (s.cueLevel_clearChannel c).looksOn
  case channelRead => simp only [State.serve]; exact .ranged fun _ => .answer s _ _
  case eventRead => simp only [State.serve]; exact .accept _ _ (.of_eq rfl rfl)
  case eventAckReset => simp only [State.serve]; exact .accept _ _ (.of_eq rfl rfl)
  case partConfig => simp only [State.serve]; exact s.servePartConfig_looksOn _ _
  case partRead => simp only [State.serve]; exact .answer s _ _
  case partReset => exact absurd rfl h
  all_goals (unfold State.serve; exact .refuse s _)

theorem State.serve_looks (s : State) (c : Instr) : s.LooksOnOrCleared (s.serve c).state := by
  by_cases h : c = .partReset
  · subst h
    exact .inr ⟨rfl, rfl⟩
  · exact .inl (s.serve_looksOn h)

theorem State.serveBytes_looks (s : State) (length : Nat) (bytes : List Byte) (part : Bool) :
    s.LooksOnOrCleared (s.serveBytes length bytes part).state := by
  unfold State.serveBytes
  split
  · next code body _ =>
    cases requestOf code.toNat body with
    | none => exact .inl (.refl s)
    | some c => exact s.serve_looks c
  · exact .inl (.refl s)
  · exact .inl (.refl s)

/-- What a transaction does around a request's rule reaches nothing that is looked at. -/
theorem State.request_looks (s : State) (n : Nat) {f : State → Reply} (h : ∀ v : State, v.LooksOnOrCleared (f v).state) :
    s.LooksOnOrCleared (s.request n f) := by
  unfold State.request
  split
  · exact .inl (.refl s)
  · split
    · exact (h (s.select n)).imp (fun k => ⟨k.counted, k.looks⟩) fun k => k
    · exact .inl (.of_eq rfl rfl)

theorem State.consume_looksOn (s : State) : s.LooksOn s.consume := by
  unfold State.consume
  split
  · exact .of_eq rfl rfl
  · exact .refl s

theorem State.shiftOut_looksOn (s : State) (l : List Byte) : s.LooksOn (s.shiftOut l) := .of_eq rfl rfl

theorem State.readOut_looksOn (s : State) (n : Clocked) : s.LooksOn (s.readOut n) := by
  unfold State.readOut
  split
  · exact .refl s
  · dsimp only
    split
    · exact (s.shiftOut_looksOn _).trans (State.consume_looksOn _)
    · exact s.shiftOut_looksOn _
  · exact (s.shiftOut_looksOn _).trans (State.consume_looksOn _)

/-! ### Frame work and the links -/

theorem State.learnFrom_looksOn (s : State) (d : ReadDone) : s.LooksOn (s.learnFrom d) := by
  unfold State.learnFrom
  split
  · exact .refl s
  · dsimp only
    split
    · split <;> exact .of_eq rfl rfl
    · exact .refl s

theorem State.takeReadDone_looksOn (s : State) : s.LooksOn s.takeReadDone := by
  unfold State.takeReadDone
  split
  · exact .refl s
  · next d l _ => exact (State.LooksOn.of_eq rfl rfl : s.LooksOn (s.setReadsDone l)).trans (State.learnFrom_looksOn _ d)

theorem State.takeHeadCueDone_looksOn (s : State) : s.LooksOn s.takeHeadCueDone := by
  unfold State.takeHeadCueDone
  split
  · exact .refl s
  · next d l _ => exact ((State.cueLevel_setCuesDone s l).trans (State.cueLevel_takeCueDone _ d)).looksOn

theorem State.panelWork_looksOn (s : State) (i : PanelInput) : s.LooksOn (s.panelWork i) := by
  unfold State.panelWork
  dsimp only
  split
  · exact (State.LooksOn.of_eq rfl rfl : s.LooksOn (s.setInput i _)).trans (State.run_press _ i).looksOn
  · exact .of_eq rfl rfl

theorem State.lightWork_looksOn (s : State) (p : Pos) : s.LooksOn (s.lightWork p) := .of_eq rfl rfl

theorem State.displayWork_looksOn (s : State) : s.LooksOn s.displayWork := by
  unfold State.displayWork
  split
  · exact .refl _
  · exact .of_eq rfl rfl

theorem State.outputsWork_looksOn (s : State) : s.LooksOn s.outputsWork := by
  have h1 : s.LooksOn ((List.finRange 8).foldl State.lightWork s) := .foldl State.lightWork_looksOn _ s
  exact h1.trans (State.displayWork_looksOn _)

theorem State.runWork_looksOn (s : State) (w : FrameWork) : s.LooksOn (s.runWork w) := by
  cases w with
  | panel i => exact s.panelWork_looksOn i
  | sequencer t => exact (s.run_sequencerWork t).looksOn
  | scheduler => exact s.cueLevel_schedulerWork.looksOn
  | channel c => exact (s.cueLevel_channelWork c).looksOn
  | status t => exact (s.run_statusWork t).looksOn
  | outputs => exact s.outputsWork_looksOn

theorem State.workWhen_looksOn (s : State) (w : FrameWork) (occurs : State → Bool) : s.LooksOn (s.workWhen w occurs) := by
  unfold State.workWhen
  split
  · unfold State.runDue
    split
    · exact (State.LooksOn.of_eq rfl rfl : s.LooksOn (s.setDue (s.due.erase w))).trans (State.runWork_looksOn _ w)
    · exact .refl s
  · exact .refl s

theorem State.takeDeviceFrame_looksOn (s : State) (c : Chan) (k : Byte) (l : List Byte) : s.LooksOn (s.takeDeviceFrame c k l) := by
  unfold State.takeDeviceFrame
  split
  · exact .refl s
  · split
    · exact (s.cueLevel_takeAccept c _).looksOn
    · split
      · exact (s.cueLevel_takeRefuse c _).looksOn
      · split
        · exact (s.cueLevel_takeStatus c _).looksOn
        · exact (s.cueLevel_hear c).looksOn

theorem State.takeEnd_looksOn (s : State) (f : Word32) (n : Nat) : s.LooksOn (s.takeEnd f n) := by
  unfold State.takeEnd
  split
  · exact .refl s
  · split
    · exact .refl s
    · dsimp only
      split
      · exact .of_eq rfl rfl
      · exact .refl s

theorem State.takeFrame_looksOn (k : RxLink) (s : State) (l : List Byte) : s.LooksOn (State.takeFrame k s l) := by
  unfold State.takeFrame
  split
  · cases k with
    | device c => exact s.takeDeviceFrame_looksOn c _ _
    | prompter =>
      dsimp only [State.takePrompterFrame]
      split
      · exact s.takeEnd_looksOn _ _
      · exact .refl s
  · exact .refl s

theorem State.receive_looksOn (s : State) (k : RxLink) (bytes : List Byte) : s.LooksOn (s.receive k bytes) := by
  have h : s.LooksOn (s.setRx k ((s.rx k).feedAll bytes).1) := by cases k <;> exact .of_eq rfl rfl
  exact h.trans (.foldl (State.takeFrame_looksOn k) _ _)

theorem State.unlessHeld_looksOn {f : State → State} (h : s.LooksOn (f s)) : s.LooksOn (s.unlessHeld f) := by
  unfold State.unlessHeld
  split
  · exact .refl s
  · exact h

/-! ### Every command -/

theorem exec_request_looks {c : Instr} (h : c.isRequest = true) (hu : ∀ n bytes part, c ≠ .unknownRequest n bytes part)
    (he : exec c s = .next u) : s.LooksOnOrCleared u := by
  rw [Instr.exec_request h hu] at he
  obtain rfl := Host.Outcome.next.inj he
  exact s.request_looks _ fun v => v.serve_looks c

theorem exec_unknownRequest_looks {n : Nat} {bytes : List Byte} {part : Bool} (he : exec (.unknownRequest n bytes part) s = .next u) :
    s.LooksOnOrCleared u := by
  obtain rfl := Host.Outcome.next.inj he
  split
  · split
    · exact .inl (.refl s)
    · exact .inl (s.readOut_looksOn _)
  · exact s.request_looks _ fun v => v.serveBytes_looks n bytes part

/-- A command that is not a frame event gives the sequencers nothing to look at before the next (R14, R41, R42, R51, R52). -/
theorem exec_looks {c : Instr} (h1 : ∀ dt e, c ≠ .refPulse dt e) (h2 : ∀ e, c ≠ .flywheelTick e) (h3 : ∀ e, c ≠ .referenceLoss e)
    (he : exec c s = .next u) : s.LooksOnOrCleared u := by
  cases c
  case unknownRequest => exact exec_unknownRequest_looks he
  case refPulse dt e => exact absurd rfl (h1 dt e)
  case flywheelTick e => exact absurd rfl (h2 e)
  case referenceLoss e => exact absurd rfl (h3 e)
  case powerOn | rstAssert =>
    obtain rfl := Host.Outcome.next.inj he
    exact .inr ⟨rfl, rfl⟩
  case rstRelease =>
    obtain rfl := Host.Outcome.next.inj he
    split
    · exact .inr ⟨rfl, rfl⟩
    · exact .inl (.refl s)
  case readTransaction =>
    obtain rfl := Host.Outcome.next.inj he
    split
    · exact .inl (.refl s)
    · exact .inl (s.readOut_looksOn _)
  case presenterCompletion =>
    obtain rfl := Host.Outcome.next.inj he
    exact .inl (State.unlessHeld_looksOn s.takeReadDone_looksOn)
  case cueCompletion =>
    obtain rfl := Host.Outcome.next.inj he
    exact .inl (State.unlessHeld_looksOn s.takeHeadCueDone_looksOn)
  case linkTransmitDone k =>
    obtain rfl := Host.Outcome.next.inj he
    exact .inl (State.unlessHeld_looksOn (f := fun s => s.setTx k (s.tx k).sent) (by cases k <;> exact .of_eq rfl rfl))
  case accept | refuse | status | deviceFrameOther | endReport | discardedLinkFrame =>
    obtain rfl := Host.Outcome.next.inj he
    exact .inl (State.unlessHeld_looksOn (State.receive_looksOn _ _ _))
  case panelDebounceExpiry | lockoutExpiry | autoTake | hardInTake | cueOffer | cueAgedLate | dwellExpiry | answerTimeout |
      guardExpiry | recoveryExpiry | silentFault | poll =>
    obtain rfl := Host.Outcome.next.inj he
    exact .inl (State.unlessHeld_looksOn (State.workWhen_looksOn _ _ _))
  all_goals exact exec_request_looks rfl (by nofun) he

end Sys2Proof.Machine
end

section
/-! PROOFS. The hard-in watch (R52, R53, R60). -/

namespace Sys2Proof.Machine

variable {s : State} {t : Track} {i : Slot} {h : Frame}

/-- A sequencer that looks at its track as it stands watches the items READY or eligible, by their hard-ins (R52). -/
theorem State.LooksAt.watches_iff (hl : s.LooksAt t (s.look t)) :
    s.Watches t i h ↔ i ∈ s.candidates t ∧ (s.slot i).fields.hardIn = some h := by
  constructor
  · rintro ⟨-, hw⟩
    exact (hl.hardIns i h).mp (State.watchedHardIn_mem hw)
  · rintro ⟨hi, hh⟩
    refine ⟨hi, ?_⟩
    have hm : ⟨i, h⟩ ∈ (s.look t).hardIns := (hl.hardIns i h).mpr ⟨hi, hh⟩
    cases hx : (s.look t).hardIns.find? (fun w => decide (w.slot = i)) with
    | none => exact absurd (List.find?_eq_none.mp hx _ hm) (by simp)
    | some w =>
      obtain ⟨j, f⟩ := w
      obtain rfl : j = i := by simpa using List.find?_some hx
      have hf := ((hl.hardIns j f).mp (List.mem_of_find?_eq_some hx)).2
      rw [State.watchedHardIn, hx]
      exact hf.symm.trans hh

end Sys2Proof.Machine

namespace Sys2Proof

open Sys2Proof.Machine

/-- Settles O29: the latest due item is the one the watch finds, and no command but a frame event or a reset gives it one to find. -/
theorem hardInTakeTakesTheLatestDueItem : Obligations.HardInTakeTakesTheLatestDueItem := by
  refine ⟨fun s t hh hd => ⟨fun i h before after hl hn hw hr ha => ?_, fun hn => ?_⟩, fun s t hl i h => hl.watches_iff,
    fun c s u h1 h2 h3 he => ?_⟩
  · have hi : s.hardInItem t = some i := State.hardInItem_latest hl hw hr ha
    have hs : (s.hardInItem t).isSome = true := by rw [hi]; rfl
    exact ⟨⟨_, exec_hardInTake_falls hh hd hs, exec_lockoutExpiry_ends hh hd, State.hardIn_tookItem hl hn hw hi⟩,
      exec_autoTake_waits hh (.inl hs)⟩
  · exact exec_hardInTake_waits hh (State.hardInItem_none hn)
  · exact (exec_looks h1 h2 h3 he).imp (fun k => ⟨k.counted, k.looks⟩) id

end Sys2Proof
end

section
/-! SUPPORT. The fault clear of the channels, one after another (R58, R135). -/

namespace Sys2Proof.Machine

variable {s t u v : State} {c d : Chan} {q : Queued} {l rest : List Queued}

/-! ### Cues that stand SENT -/

/-- The cue, where there is one, is SENT. -/
def State.SentAt (s : State) (i : Slot) (k : Nat) : Prop := ∀ z, s.cue? i k = some z → z.state = .sent

theorem State.SentAt.of_slots {i : Slot} {k : Nat} (h : s.SentAt i k) (hs : u.slots = s.slots) : u.SentAt i k := by
  intro z hz
  rw [State.cue?, State.slot, hs] at hz
  exact h z hz

theorem State.modifyCue_cue? (s : State) (i : Slot) (k : Nat) (f : Cue → Cue) (j : Slot) (m : Nat) :
    (s.modifyCue i k f).cue? j m = if j = i ∧ m = k then (s.cue? i k).map f else s.cue? j m := by
  by_cases hj : j = i
  · subst hj
    rw [State.modifyCue, State.cue?, State.setSlot_slot_self, List.getElem?_modify]
    by_cases hm : m = k
    · subst hm
      simp only [if_true, and_self]
      rfl
    · rw [if_neg fun h => hm h.2]
      simp only [if_neg (Ne.symm hm)]
      exact id_map' _
  · rw [if_neg (fun h => hj h.1), State.modifyCue, State.cue?, State.setSlot_slot_ne _ _ _ hj]
    rfl

/-- A cue that becomes SENT is SENT, and so stays every other that was. -/
theorem State.sentAt_setCueState {i : Slot} {k : Nat} {j : Slot} {m : Nat} (h : j = i ∧ m = k ∨ s.SentAt j m) :
    (s.setCueState i k .sent).SentAt j m := by
  intro z hz
  rw [State.setCueState, State.modifyCue_cue?] at hz
  split at hz
  · obtain ⟨y, -, rfl⟩ := Option.map_eq_some_iff.mp hz
    rfl
  · next hn => exact h.elim (fun e => absurd e hn) fun h => h z hz

theorem State.emptySlot_slots (s : State) (c : Chan) (o : CueOutcome) : (s.emptySlot c o).slots = s.slots := by
  unfold State.emptySlot
  split <;> rfl

theorem State.rest_slots (s : State) (c : Chan) (g : Nat) : (s.rest c g).slots = s.slots := by
  unfold State.rest
  split <;> rfl

theorem State.sentAt_grantChain {i : Slot} {k : Nat} (c : Chan) (n : Nat) (s : State) (h : s.SentAt i k) :
    (State.grantChain c n s).SentAt i k := by
  induction n generalizing s with
  | zero => exact h
  | succ n ih =>
    rw [State.grantChain]
    split
    · split
      · exact h
      · next q rest _ =>
        have hs : (s.send c q rest).SentAt i k := (State.sentAt_setCueState (.inr h)).of_slots rfl
        dsimp only
        split
        · exact ih _ (hs.of_slots (by rw [State.rest_slots, State.emptySlot_slots]))
        · exact hs
    · exact h

/-! ### Links -/

theorem State.emptySlot_tx (s : State) (c : Chan) (o : CueOutcome) (k : Link) : (s.emptySlot c o).tx k = s.tx k := by
  unfold State.emptySlot
  split
  · rfl
  · rw [State.handCue, State.setCuesDone_tx, State.setChannel_tx]

theorem State.rest_tx (s : State) (c : Chan) (g : Nat) (k : Link) : (s.rest c g).tx k = s.tx k := by
  unfold State.rest
  split <;> rw [State.setChannel_tx]

theorem State.send_tx_self (s : State) (c : Chan) (q : Queued) (rest : List Queued) : (s.send c q rest).tx (.device c) =
    (s.tx (.device c)).push (.command ((s.channel c).tag + 1) q.action q.param q.track) := by
  rw [State.send]
  simp only [State.emit_tx_self, State.setChannel_tx]
  rfl

theorem State.send_tx_ne (s : State) (c : Chan) (q : Queued) (rest : List Queued) {k : Link} (h : k ≠ .device c) :
    (s.send c q rest).tx k = s.tx k := by
  rw [State.send]
  simp only [State.emit_tx_ne _ _ _ h, State.setChannel_tx]
  cases k <;> rfl

theorem State.grantChain_tx_ne {k : Link} (h : k ≠ .device c) (n : Nat) (s : State) : (State.grantChain c n s).tx k = s.tx k := by
  induction n generalizing s with
  | zero => rfl
  | succ n ih =>
    rw [State.grantChain]
    split
    · split
      · rfl
      · next q rest _ =>
        dsimp only
        split
        · rw [ih, State.rest_tx, State.emptySlot_tx, State.send_tx_ne s c q rest h]
        · exact s.send_tx_ne c q rest h
    · rfl

/-! ### One channel -/

/-- The record of a channel whose fault flag and silent count are cleared. -/
def Channel.cleared (x : Channel) : Channel := { x with faultFlag := false, silent := 0 }

/-- The record of a channel brought to READY by a fault clear. -/
def Channel.revived (x : Channel) : Channel := { x with faultFlag := false, silent := 0, state := .ready, recovery := 0 }

theorem State.clearChannel_offline (h : (s.channel c).state = .offline) : s.clearChannel c = s := by
  rw [State.clearChannel, h]

theorem State.clearChannel_serving
    (h : (s.channel c).state = .ready ∨ (s.channel c).state = .busy ∨ (s.channel c).state = .guard) :
    s.clearChannel c = s.setChannel c (s.channel c).cleared := by
  unfold State.clearChannel
  rcases h with h | h | h <;> rw [h] <;> rfl

theorem State.clearChannel_stopped (h : (s.channel c).state = .faulted ∨ (s.channel c).state = .recovering) :
    s.clearChannel c = (s.setChannel c (s.channel c).revived).grant c := by
  unfold State.clearChannel
  rcases h with h | h <;> rw [h] <;> rfl

theorem State.clearChannel_cases (s : State) (c : Chan) : s.clearChannel c = s ∨ s.clearChannel c = s.setChannel c (s.channel c).cleared ∨
    s.clearChannel c = (s.setChannel c (s.channel c).revived).grant c := by
  cases h : (s.channel c).state with
  | offline => exact .inl (State.clearChannel_offline h)
  | ready => exact .inr (.inl (State.clearChannel_serving (.inl h)))
  | busy => exact .inr (.inl (State.clearChannel_serving (.inr (.inl h))))
  | guard => exact .inr (.inl (State.clearChannel_serving (.inr (.inr h))))
  | faulted => exact .inr (.inr (State.clearChannel_stopped (.inl h)))
  | recovering => exact .inr (.inr (State.clearChannel_stopped (.inr h)))

/-- The head of the queue of a READY channel is sent, and runs (R121). -/
theorem State.grant_runs (hr : (s.channel c).state = .ready) (hq : (s.channel c).queue = q :: rest) (h : q.runs) :
    s.grant c = s.send c q rest := by
  have hd : q.doneAtSend = false := by
    rcases h with h | h
    · rw [Queued.doneAtSend, h]; rfl
    · rw [Queued.doneAtSend, decide_eq_false h, Bool.and_false]
  rw [State.grant, hq, List.length_cons, State.grantChain, if_pos hr, hq]
  simp only [hd]
  rfl

/-! ### What the clears of the other channels leave -/

/-- The channel, its link and every cue that is SENT are left, and nothing outside the channels, their links, the completions and the
cues differs. -/
structure State.LeavesChannel (c : Chan) (s u : State) : Prop where
  reach : s.ChannelReach u
  channel : u.channel c = s.channel c
  link : u.tx (.device c) = s.tx (.device c)
  sent : ∀ i k, s.SentAt i k → u.SentAt i k

theorem State.LeavesChannel.refl (c : Chan) (s : State) : State.LeavesChannel c s s := ⟨.refl s, rfl, rfl, fun _ _ => id⟩

theorem State.LeavesChannel.trans (a : State.LeavesChannel c s t) (b : State.LeavesChannel c t u) : State.LeavesChannel c s u :=
  ⟨a.reach.trans b.reach, b.channel.trans a.channel, b.link.trans a.link, fun i k h => b.sent i k (a.sent i k h)⟩

theorem State.leavesChannel_setChannel (h : c ≠ d) (s : State) (x : Channel) : State.LeavesChannel c s (s.setChannel d x) :=
  ⟨s.reach_setChannel d x, State.setChannel_channel_ne _ _ _ h, s.setChannel_tx d x _, fun _ _ h => h⟩

theorem State.leavesChannel_grant (h : c ≠ d) (s : State) : State.LeavesChannel c s (s.grant d) :=
  ⟨s.reach_grant d, (State.onChannel_grant s d).others c h,
    State.grantChain_tx_ne (fun e => h (Link.device.inj e)) _ s, fun _ _ => State.sentAt_grantChain d _ s⟩

theorem State.leavesChannel_clearChannel (h : c ≠ d) (s : State) : State.LeavesChannel c s (s.clearChannel d) := by
  rcases s.clearChannel_cases d with e | e | e
  · rw [e]; exact .refl c s
  · rw [e]; exact State.leavesChannel_setChannel h s _
  · rw [e]; exact (State.leavesChannel_setChannel h s _).trans (State.leavesChannel_grant h _)

theorem State.leavesChannel_clears {l : List Chan} (h : c ∉ l) (s : State) :
    State.LeavesChannel c s (l.foldl State.clearChannel s) := by
  induction l generalizing s with
  | nil => exact .refl c s
  | cons d l ih =>
    obtain ⟨hd, hl⟩ := List.ne_and_not_mem_of_not_mem_cons h
    exact (State.leavesChannel_clearChannel hd s).trans (ih hl _)

/-- Every channel is cleared once, between the clears of others that leave it (R58). -/
theorem State.clearAll_around (s : State) (c : Chan) :
    ∃ v, State.LeavesChannel c s v ∧ State.LeavesChannel c (v.clearChannel c) s.clearAll := by
  obtain ⟨a, b, hab⟩ := List.append_of_mem (List.mem_finRange c)
  have hn : (a ++ c :: b).Nodup := hab ▸ List.nodup_finRange 12
  obtain ⟨-, hcb, hdis⟩ := List.nodup_append.mp hn
  have ha : c ∉ a := fun h => hdis c h c List.mem_cons_self rfl
  have hb : c ∉ b := (List.nodup_cons.mp hcb).1
  refine ⟨a.foldl State.clearChannel s, State.leavesChannel_clears ha s, ?_⟩
  rw [State.clearAll, hab, List.foldl_append, List.foldl_cons]
  exact State.leavesChannel_clears hb _

theorem State.reach_clearChannel (s : State) (c : Chan) : s.ChannelReach (s.clearChannel c) := by
  rcases s.clearChannel_cases c with e | e | e
  · rw [e]; exact .refl s
  · rw [e]; exact s.reach_setChannel c _
  · rw [e]; exact (s.reach_setChannel c _).trans (State.reach_grant _ c)

theorem State.reach_clearAll (s : State) : s.ChannelReach s.clearAll := .foldl State.reach_clearChannel _ s

/-! ### What the clear of all leaves of a channel (R58, R135) -/

theorem State.clearAll_offline (h : (s.channel c).state = .offline) : s.clearAll.channel c = s.channel c := by
  obtain ⟨v, hv, hu⟩ := s.clearAll_around c
  rw [State.clearChannel_offline (by rwa [hv.channel])] at hu
  exact hu.channel.trans hv.channel

theorem State.clearAll_serving
    (h : (s.channel c).state = .ready ∨ (s.channel c).state = .busy ∨ (s.channel c).state = .guard) :
    s.clearAll.channel c = (s.channel c).cleared := by
  obtain ⟨v, hv, hu⟩ := s.clearAll_around c
  rw [State.clearChannel_serving (by rwa [hv.channel]), hv.channel] at hu
  rw [hu.channel, State.setChannel_channel_self]

theorem State.clearAll_idle (h : (s.channel c).state = .faulted ∨ (s.channel c).state = .recovering)
    (hq : (s.channel c).queue = []) : s.clearAll.channel c = (s.channel c).revived := by
  obtain ⟨v, hv, hu⟩ := s.clearAll_around c
  have hg : (v.setChannel c (v.channel c).revived).grant c = v.setChannel c (v.channel c).revived :=
    State.grant_idle fun _ => by rw [State.setChannel_channel_self, hv.channel]; exact hq
  rw [State.clearChannel_stopped (by rwa [hv.channel]), hg, hv.channel] at hu
  rw [hu.channel, State.setChannel_channel_self]

/-- A channel brought to READY sends the head of its queue. -/
theorem State.clearAll_sends (h : (s.channel c).state = .faulted ∨ (s.channel c).state = .recovering)
    (hq : (s.channel c).queue = q :: rest) (hr : q.runs) :
    s.clearAll.channel c = { (s.channel c).revived with
        state := .busy, queue := rest, tag := (s.channel c).tag + 1, begun := s.beginsEarly c
        command := some (q.command ((s.channel c).tag + 1) s.sfc) } ∧
      s.clearAll.tx (.device c) = (s.tx (.device c)).push (.command ((s.channel c).tag + 1) q.action q.param q.track) ∧
      s.clearAll.SentAt q.cue.slot q.cue.index := by
  obtain ⟨v, hv, hu⟩ := s.clearAll_around c
  have hc : (v.setChannel c (v.channel c).revived).channel c = (s.channel c).revived := by
    rw [State.setChannel_channel_self, hv.channel]
  have hg : (v.setChannel c (v.channel c).revived).grant c = (v.setChannel c (v.channel c).revived).send c q rest :=
    State.grant_runs (by rw [hc]; rfl) (by rw [hc]; exact hq) hr
  have hb : (v.setChannel c (v.channel c).revived).beginsEarly c = s.beginsEarly c := by
    rw [State.beginsEarly, State.setChannel_due, hv.reach.due]; rfl
  have hf : (v.setChannel c (v.channel c).revived).sfc = s.sfc := hv.reach.sfc
  rw [State.clearChannel_stopped (by rwa [hv.channel]), hg] at hu
  refine ⟨?_, ?_, hu.sent _ _ ?_⟩
  · rw [hu.channel, State.send_channel_self, hc, hb, hf]
    rfl
  · rw [hu.link, State.send_tx_self, hc, State.setChannel_tx, hv.link]
    rfl
  · exact (State.sentAt_setCueState (.inl ⟨rfl, rfl⟩)).of_slots rfl

end Sys2Proof.Machine
end

section
/-! PROOFS. The panel inputs (R57, R58). -/

namespace Sys2Proof.Machine

variable {s u : State} {t : Track} {i : PanelInput} {r : Slot} {c : Chan} {x : Panel} {n : Nat}

/-! ### The debounce (R57) -/

theorem Panel.sample_level (h : x.raw = x.active) : x.sample n = ({ x with count := 0 }, false) := by
  rw [Panel.sample, if_pos h]

theorem Panel.sample_counts (h : x.raw ≠ x.active) (hc : x.count + 1 < n) :
    x.sample n = ({ x with count := x.count + 1 }, false) := by
  rw [Panel.sample, if_neg h, if_neg (Nat.not_le.mpr hc)]

theorem Panel.sample_changes (h : x.raw ≠ x.active) (hc : n ≤ x.count + 1) :
    x.sample n = ({ x with active := x.raw, count := 0 }, true) := by
  rw [Panel.sample, if_neg h, if_pos hc]

/-- A sample that recognises no change sets the count alone. -/
theorem State.panelWork_unchanged {y : Panel} (h : ((s.input i).sample s.debounce).1 = y) (ha : y.active = (s.input i).active) :
    s.panelWork i = s.setInput i y := by
  unfold State.panelWork
  dsimp only
  rw [h, ha, Bool.and_not_self, if_neg Bool.false_ne_true]

/-- The state with the new level of an input, its work no longer due (R57). -/
def State.leveled (s : State) (i : PanelInput) : State :=
  (s.setDue (s.due.erase (.panel i))).setInput i { s.input i with active := (s.input i).raw, count := 0 }

/-- A recognised change is a press where the new level is active (R57, R58). -/
theorem State.panelWork_changes (h : (s.input i).raw ≠ (s.input i).active) (hc : s.debounce ≤ (s.input i).count + 1) :
    (s.atWork (.panel i)).runWork (.panel i) = if (s.input i).raw then (s.leveled i).press i else s.leveled i := by
  have hs : ((s.atWork (.panel i)).input i).sample (s.atWork (.panel i)).debounce = _ := Panel.sample_changes h hc
  have hl : ((s.input i).raw && !(s.input i).active) = (s.input i).raw := by
    rw [Bool.eq_not.mpr (Ne.symm h), Bool.not_not, Bool.and_self]
  show State.panelWork _ i = _
  unfold State.panelWork
  dsimp only
  rw [hs]
  show (if ((s.input i).raw && !(s.input i).active) = true then _ else _) = _
  rw [hl]
  rfl

theorem exec_panelDebounce_changes (hh : s.held = false) (hd : .panel i ∈ s.due) (h : (s.input i).raw ≠ (s.input i).active)
    (hc : s.debounce ≤ (s.input i).count + 1) :
    exec (.panelDebounceExpiry i) s = .next (if (s.input i).raw then (s.leveled i).press i else s.leveled i) := by
  have ho : (s.atWork (.panel i)).recognises i = true := congrArg Prod.snd (Panel.sample_changes h hc)
  rw [← State.panelWork_changes h hc]
  exact congrArg Host.Outcome.next (State.work_occurs hh hd ho)

theorem exec_panelDebounce_waits (hh : s.held = false)
    (h : (s.input i).raw = (s.input i).active ∨ (s.input i).count + 1 < s.debounce) :
    exec (.panelDebounceExpiry i) s = .next s := by
  have ho : (s.atWork (.panel i)).recognises i = false := by
    by_cases hl : (s.input i).raw = (s.input i).active
    · exact congrArg Prod.snd (Panel.sample_level (n := s.debounce) hl)
    · exact congrArg Prod.snd (Panel.sample_counts hl (h.resolve_left hl))
  exact congrArg Host.Outcome.next (State.work_waits hh ho)

/-! ### The presses (R58) -/

theorem State.pressTake_nothing (h : 0 < (s.track t).lockoutCount ∨ (s.track t).ready = none) : s.pressTake t = s := by
  unfold State.pressTake
  cases hr : (s.track t).ready with
  | none => rfl
  | some r => exact if_pos (h.resolve_right (by rw [hr]; nofun))

/-- A TAKE press that acts is an ordinary take (R50, R58). -/
theorem State.pressTake_takes (hl : (s.track t).lockoutCount = 0) (hr : (s.track t).ready = some r) :
    s.TookItem (s.pressTake t) t r (frameAdd s.sfc (s.track t).takeDelay) [] := by
  have h : s.pressTake t = s.take t r (frameAdd s.sfc (s.track t).takeDelay) [] := by
    unfold State.pressTake
    rw [hr]
    exact if_neg (Nat.not_lt.mpr (Nat.le_zero.mpr hl))
  rw [h]
  exact s.tookItem_take t r _ []

theorem State.pressSkip_nothing (h : (s.track t).ready = none) : s.pressSkip t = s := by rw [State.pressSkip, h]

theorem State.pressSkip_skips (h : (s.track t).ready = some r) : s.pressSkip t = s.skip t r := by rw [State.pressSkip, h]

/-- What a CLEAR press leaves of each channel (R58, R135). -/
theorem State.clearAll_leveled (s : State) (c : Chan) {x : Channel} (hx : x = s.channel c) :
    (x.state = .offline → (s.leveled i).clearAll.channel c = x) ∧
    (x.state = .ready ∨ x.state = .busy ∨ x.state = .guard → (s.leveled i).clearAll.channel c = x.cleared) ∧
    (x.state = .faulted ∨ x.state = .recovering →
      (x.queue = [] → (s.leveled i).clearAll.channel c = x.revived) ∧
      (∀ q rest, x.queue = q :: rest → q.runs →
        (s.leveled i).clearAll.channel c = { x.revived with
          state := .busy, queue := rest, tag := x.tag + 1, begun := decide (.channel c ∈ s.due)
          command := some (q.command (x.tag + 1) s.sfc) } ∧
        (s.leveled i).clearAll.tx (.device c) = (s.tx (.device c)).push (.command (x.tag + 1) q.action q.param q.track) ∧
        (s.leveled i).clearAll.SentAt q.cue.slot q.cue.index)) := by
  subst hx
  have hb : (s.leveled i).beginsEarly c = decide (.channel c ∈ s.due) :=
    decide_eq_decide.mpr (List.mem_erase_of_ne (by nofun))
  refine ⟨fun h => State.clearAll_offline (s := s.leveled i) h, fun h => State.clearAll_serving (s := s.leveled i) h,
    fun h => ⟨fun hq => State.clearAll_idle (s := s.leveled i) h hq, fun q rest hq hr => ?_⟩⟩
  have hk := State.clearAll_sends (s := s.leveled i) h hq hr
  rw [hb] at hk
  exact hk

end Sys2Proof.Machine

namespace Sys2Proof

open Sys2Proof.Machine

/-- Settles O31: a sample recognised is the new level, and a press is the take, the skip or the clear of all of the state with it. -/
theorem panelInputsAreDebounced : Obligations.PanelInputsAreDebounced := by
  intro s i
  refine ⟨fun h => ?_, fun h hc => ?_, fun hh hd h hc => ?_, fun hh h => exec_panelDebounce_waits hh h⟩
  · exact State.panelWork_unchanged (congrArg Prod.fst (Panel.sample_level h)) rfl
  · exact State.panelWork_unchanged (congrArg Prod.fst (Panel.sample_counts h hc)) rfl
  refine ⟨_, s.leveled i, exec_panelDebounce_changes hh hd h hc, rfl, fun hn => ?_, fun hr => ?_⟩
  · rcases hn with hr | rfl | rfl
    · rw [hr]; rfl
    · exact ite_self _
    · exact ite_self _
  rw [if_pos hr]
  refine ⟨fun t ht => ?_, fun t ht => ?_, fun hi => ?_⟩
  · have hp : (s.leveled i).press i = (s.leveled i).pressTake t := by rw [ht]; cases t <;> rfl
    rw [hp]
    exact ⟨fun hn => State.pressTake_nothing (s := s.leveled i) hn,
      fun r hl hready => State.pressTake_takes (s := s.leveled i) hl hready⟩
  · have hp : (s.leveled i).press i = (s.leveled i).pressSkip t := by rw [ht]; cases t <;> rfl
    rw [hp]
    refine ⟨fun hn => State.pressSkip_nothing (s := s.leveled i) hn, fun r hready => ?_⟩
    rw [State.pressSkip_skips (s := s.leveled i) hready]
    obtain ⟨hstate, halike, -⟩ := (s.leveled i).skip_item t r
    exact ⟨hstate, halike.revision, (s.leveled i).editOf_skip t r, (s.leveled i).skip_looks t r,
      fun hq => ⟨(s.leveled i).skipItem r, State.skips_skipItem (s := s.leveled i) hq r, (s.leveled i).skip_eq t r⟩,
      (s.leveled i).skip_head t r⟩
  · have hp : (s.leveled i).press i = (s.leveled i).clearAll := by rw [hi]; rfl
    rw [hp]
    exact ⟨(s.leveled i).reach_clearAll, fun c x hx => s.clearAll_leveled c hx⟩

end Sys2Proof
end

section
/-! SUPPORT. The first steps of a track reset, one lemma for each operation: the cues that wait withdrawn, the records reset, the status
cleared and the groups discarded (R37, R55, R77, R101). -/

namespace Sys2Proof.Machine

variable {s u v : State} {t r : Track} {i j : Slot} {l : List Slot}

/-! ### The cues of several items withdrawn (R55 step 1) -/

/-- The entry stays in the firing list when the cues of the items of `l` are abandoned. -/
def State.staysFiring (s : State) (l : List Slot) (e : Firing) : Bool :=
  !(decide (e.slot ∈ l) && (s.cue? e.slot e.index).any (fun q => decide (q.state = .armed)))

/-- The entry stays in the wait queue of channel `c` when the cues of the items of `l` are abandoned. -/
def State.staysQueued (s : State) (l : List Slot) (c : Chan) (x : Queued) : Bool :=
  !(decide (x.cue.slot ∈ l) && (s.cue? x.cue.slot x.cue.index).any (fun q =>
    decide (q.state = .queued) && q.resolved.any (fun r => decide (r.delivery.channel = c))))

/-- Every cue of the items of `l` has been abandoned, and nothing else has changed (R100, R101). -/
structure State.Withdrawn (s u : State) (l : List Slot) : Prop where
  items : ∀ i ∈ l, u.slot i = { s.slot i with cues := (s.slot i).cues.map (Cue.abandonedIf (fun _ => true)) }
  others : ∀ i, i ∉ l → u.slot i = s.slot i
  firing : u.firing = s.firing.filter (s.staysFiring l)
  queues : ∀ c, u.channel c = { s.channel c with queue := (s.channel c).queue.filter (s.staysQueued l c) }
  rest : u = { s with slots := u.slots, firing := u.firing, channels := u.channels }

theorem State.Withdrawn.nil (s : State) : s.Withdrawn s [] where
  items := nofun
  others := fun _ _ => rfl
  firing := (List.filter_eq_self.mpr fun _ _ => by simp [State.staysFiring]).symm
  queues := fun c => by
    rw [List.filter_eq_self.mpr fun _ _ => by simp [State.staysQueued]]
  rest := rfl

/-- An entry stays through the abandonment of one item and then of others where it stays through that of them all. -/
theorem State.Abandoned.staysFiring (h : s.Abandoned v i (fun _ => true)) (hi : i ∉ l) (e : Firing) :
    (v.staysFiring l e && !(decide (e.slot = i) && (s.cue? i e.index).any (fun q => true && decide (q.state = .armed)))) =
      s.staysFiring (i :: l) e := by
  unfold State.staysFiring
  by_cases he : e.slot = i
  · simp [he, hi]
  · simp [State.cue?, h.others _ he, he]

theorem State.Abandoned.staysQueued (h : s.Abandoned v i (fun _ => true)) (hi : i ∉ l) (c : Chan) (x : Queued) :
    (v.staysQueued l c x && !(decide (x.cue.slot = i) && (s.cue? i x.cue.index).any (fun q =>
      true && decide (q.state = .queued) && q.resolved.any (fun r => decide (r.delivery.channel = c))))) =
      s.staysQueued (i :: l) c x := by
  unfold State.staysQueued
  by_cases he : x.cue.slot = i
  · simp [he, hi]
  · simp [State.cue?, h.others _ he, he]

theorem State.Abandoned.withdrawn (h : s.Abandoned v i (fun _ => true)) (hi : i ∉ l) (k : v.Withdrawn u l) :
    s.Withdrawn u (i :: l) where
  items := fun j hj => by
    rcases List.mem_cons.mp hj with rfl | hj
    · rw [k.others j hi, h.item]
    · have hne : j ≠ i := fun e => hi (e ▸ hj)
      rw [k.items j hj, h.others j hne]
  others := fun j hj => by
    obtain ⟨hne, hjl⟩ := List.ne_and_not_mem_of_not_mem_cons hj
    rw [k.others j hjl, h.others j hne]
  firing := by
    rw [k.firing, h.firing, List.filter_filter]
    exact List.filter_congr fun e _ => h.staysFiring hi e
  queues := fun c => by
    rw [k.queues, h.queues]
    simp only [List.filter_filter]
    congr 1
    exact List.filter_congr fun x _ => h.staysQueued hi c x
  rest := by rw [k.rest, h.rest]

/-- The cues of the items of a list abandoned, where no READY channel has a cue queued. -/
theorem State.withdrawn_abandonAll (hs : s.QueuesIdle) (hl : l.Nodup) : s.Withdrawn (l.foldl State.abandonAll s) l := by
  induction l generalizing s with
  | nil => exact .nil s
  | cons i l ih =>
    obtain ⟨hi, hl⟩ := List.nodup_cons.mp hl
    have h := State.abandoned_abandon hs i (fun _ => true)
    exact h.withdrawn hi (ih (h.queuesIdle hs) hl)

theorem State.cueLevel_withdraw_items (s : State) (l : List Slot) : s.CueLevel (l.foldl State.abandonAll s) :=
  State.CueLevel.foldl State.cueLevel_abandonAll l s

theorem State.withdraw_items_flags (s : State) (l : List Slot) : (l.foldl State.abandonAll s).flags = s.flags := by
  induction l generalizing s with
  | nil => rfl
  | cons i l ih => rw [List.foldl_cons, ih]; exact State.abandon_flags _ _ _

/-! ### The records reset (R55 steps 2 and 3) -/

/-- The records of some items reset. -/
def State.resetItems (s : State) (l : List Slot) : State := l.foldl (fun s i => s.setSlot i (s.slot i).resetByTrack) s

theorem State.resetItems_eq (s : State) (l : List Slot) : s.resetItems l = { s with slots := (s.resetItems l).slots } := by
  induction l generalizing s with
  | nil => rfl
  | cons i l ih => exact ih (s.setSlot i (s.slot i).resetByTrack)

theorem State.resetItems_slot_of_notMem (h : i ∉ l) (s : State) : (s.resetItems l).slot i = s.slot i := by
  induction l generalizing s with
  | nil => rfl
  | cons j l ih =>
    obtain ⟨hj, hl⟩ := List.ne_and_not_mem_of_not_mem_cons h
    exact (ih hl _).trans (State.setSlot_slot_ne _ _ _ hj)

theorem State.resetItems_slot_of_mem (hl : l.Nodup) (h : i ∈ l) (s : State) :
    (s.resetItems l).slot i = (s.slot i).resetByTrack := by
  induction l generalizing s with
  | nil => nomatch h
  | cons j l ih =>
    obtain ⟨hj, hl⟩ := List.nodup_cons.mp hl
    rcases List.mem_cons.mp h with rfl | h
    · exact (State.resetItems_slot_of_notMem hj _).trans (State.setSlot_slot_self _ _ _)
    · have hne : i ≠ j := fun e => hj (e ▸ h)
      exact (ih hl h _).trans (by rw [State.setSlot_slot_ne _ _ _ hne])

/-- An item READY, ON_AIR, DONE or SKIPPED returns to PLANNED (R55). -/
theorem Item.resetByTrack_returns {x : Item} (h : x.state = .ready ∨ x.state = .onAir ∨ x.state = .done ∨ x.state = .skipped) :
    x.resetByTrack = { x with
      revision := nextRevision x.revision, airing := nextAiring x.airing, state := .planned, start := none, actual := none
      prompterEnd := none, cueFault := false, cues := x.cues.map (fun q => q.spec.fresh) } := by
  have hr : x.state.returns = true := by rcases h with h | h | h | h <;> rw [h] <;> rfl
  unfold Item.resetByTrack
  rw [if_pos hr]
  rfl

/-- A PLANNED item stays as it is but for its cues (R55). -/
theorem Item.resetByTrack_planned {x : Item} (h : x.state = .planned) :
    x.resetByTrack = { x with cueFault := false, cues := x.cues.map (fun q => q.spec.fresh) } := by
  have hr : x.state.returns = false := by rw [h]; rfl
  unfold Item.resetByTrack
  rw [if_neg (by rw [hr]; nofun)]
  rfl

theorem Item.resetByTrack_cues (x : Item) : x.resetByTrack.cues = x.cues.map (fun q => q.spec.fresh) := by
  unfold Item.resetByTrack
  split <;> rfl

theorem Item.resetByTrack_cueFault (x : Item) : x.resetByTrack.cueFault = false := rfl

/-- An abandoned cue keeps what the host gave, so that its list PENDING is that of the cues before (R91). -/
theorem map_fresh_abandonedIf (w : Cue → Bool) (l : List Cue) :
    (l.map (Cue.abandonedIf w)).map (fun q => q.spec.fresh) = l.map (fun q => q.spec.fresh) := by
  rw [List.map_map]
  refine List.map_congr_left fun q _ => ?_
  rw [Function.comp_apply, Cue.abandonedIf]
  split <;> rfl

/-! ### The status (R76, R77) -/

theorem State.moveStatus_eq (s : State) (t : Track) (x : Status) : s.moveStatus t x = { s with
    status := s.status.set t x
    flags := if s.statusOf t = x then s.flags else s.flags.put (timingEvent t) } := by
  unfold State.moveStatus
  split
  · next h =>
    rw [← h]
    exact congrArg (fun p => { s with status := p }) (PerTrack.set_get s.status t).symm
  · rfl

/-! ### The groups discarded (R37) -/

section
variable {m : List GroupNo} {g : GroupNo}

theorem State.discards_eq (s : State) (m : List GroupNo) : m.foldl State.discardGroup s = { s with
    slots := (m.foldl State.discardGroup s).slots, groups := (m.foldl State.discardGroup s).groups
    armed := (m.foldl State.discardGroup s).armed } := by
  induction m generalizing s with
  | nil => rfl
  | cons g m ih =>
    rw [List.foldl_cons, ih, State.discardGroup_eq]

theorem State.discards_group_of_notMem (h : g ∉ m) (s : State) : (m.foldl State.discardGroup s).group g = s.group g := by
  induction m generalizing s with
  | nil => rfl
  | cons k m ih =>
    obtain ⟨hk, hm⟩ := List.ne_and_not_mem_of_not_mem_cons h
    rw [List.foldl_cons, ih hm, State.discardGroup_group_ne _ hk]

theorem State.discards_group_of_mem (hm : m.Nodup) (h : g ∈ m) (s : State) :
    (m.foldl State.discardGroup s).group g = (s.group g).toIdle .none := by
  induction m generalizing s with
  | nil => nomatch h
  | cons k m ih =>
    obtain ⟨hk, hm⟩ := List.nodup_cons.mp hm
    rw [List.foldl_cons]
    rcases List.mem_cons.mp h with rfl | h
    · rw [State.discards_group_of_notMem hk, State.discardGroup_group_self]
    · have hne : g ≠ k := fun e => hk (e ▸ h)
      rw [ih hm h, State.discardGroup_group_ne _ hne]

theorem State.discards_slot_of_notMem (hm : m.Nodup) (h : ∀ g ∈ m, i ∉ (s.group g).reserved) :
    (m.foldl State.discardGroup s).slot i = s.slot i := by
  induction m generalizing s with
  | nil => rfl
  | cons k m ih =>
    obtain ⟨hk, hm⟩ := List.nodup_cons.mp hm
    have hrest : ∀ g ∈ m, i ∉ ((s.discardGroup k).group g).reserved := fun g hg => by
      have hne : g ≠ k := fun e => hk (e ▸ hg)
      rw [State.discardGroup_group_ne _ hne]
      exact h g (List.mem_cons_of_mem k hg)
    rw [List.foldl_cons, ih hm hrest, State.discardGroup_slot_of_notMem _ (h k List.mem_cons_self)]

/-- A slot freed stays freed, whether or not another group had reserved it. -/
theorem State.discards_slot_freed (m : List GroupNo) (h : s.slot i = (v.slot i).freed) :
    (m.foldl State.discardGroup s).slot i = (v.slot i).freed := by
  induction m generalizing s with
  | nil => exact h
  | cons k m ih =>
    refine ih ?_
    by_cases hi : i ∈ (s.group k).reserved
    · rw [State.discardGroup_slot_of_mem _ hi, h]; rfl
    · rw [State.discardGroup_slot_of_notMem _ hi, h]

theorem State.discards_slot_of_mem (hm : m.Nodup) (hg : g ∈ m) (h : i ∈ (s.group g).reserved) :
    (m.foldl State.discardGroup s).slot i = (s.slot i).freed := by
  induction m generalizing s with
  | nil => nomatch hg
  | cons k m ih =>
    obtain ⟨hk, hm⟩ := List.nodup_cons.mp hm
    by_cases hi : i ∈ (s.group k).reserved
    · exact State.discards_slot_freed m (State.discardGroup_slot_of_mem _ hi)
    · have hne : g ≠ k := fun e => hi (e ▸ h)
      have hgm := (List.mem_cons.mp hg).resolve_left hne
      rw [List.foldl_cons, ih hm hgm (by rwa [State.discardGroup_group_ne _ hne]), State.discardGroup_slot_of_notMem _ hi]

/-- The queue of the track whose groups are discarded keeps those that are not. -/
theorem State.discards_queue (hm : m.Nodup) (h : ∀ g ∈ m, (s.group g).track = t) :
    (m.foldl State.discardGroup s).armedQueue t = (s.armedQueue t).filter (fun g => decide (g ∉ m)) ∧
      ∀ r, r ≠ t → (m.foldl State.discardGroup s).armedQueue r = s.armedQueue r := by
  induction m generalizing s with
  | nil => exact ⟨(List.filter_eq_self.mpr fun _ _ => by simp).symm, fun _ _ => rfl⟩
  | cons k m ih =>
    obtain ⟨hk, hm⟩ := List.nodup_cons.mp hm
    have hkt : (s.group k).track = t := h k List.mem_cons_self
    obtain ⟨h1, h2⟩ := ih (s := s.discardGroup k) hm fun g hg => by
      have hne : g ≠ k := fun e => hk (e ▸ hg)
      rw [State.discardGroup_group_ne _ hne]
      exact h g (List.mem_cons_of_mem k hg)
    have hself := s.discardGroup_queue_self k
    rw [hkt] at hself
    refine ⟨?_, fun r hr => ?_⟩
    · rw [List.foldl_cons, h1, hself, List.filter_filter]
      refine List.filter_congr fun g _ => ?_
      by_cases e : g = k <;> simp [e]
    · rw [List.foldl_cons, h2 r hr, State.discardGroup_queue_ne _ _ (by rw [hkt]; exact hr)]

end

end Sys2Proof.Machine
end

section
/-! SUPPORT. The READY choice where no item stands READY and no READY channel has a cue queued: beside its candidate it reaches nothing
(R44, R45, R98, R118). -/

namespace Sys2Proof.Machine

variable {s u v : State} {t r : Track} {i j : Slot}

/-- The state in which the READY-phase cues of an item that enters READY are armed (R45, R96). -/
def State.enteringReady (s : State) (t : Track) (i : Slot) : State :=
  (s.setSlot i (s.slot i).enterReady).setTrack t { s.track t with ready := some i }

theorem State.enterReady_eq (s : State) (t : Track) (i : Slot) : s.enterReady t i =
    ((s.enteringReady t i).armPhase .ready s.sfc i).emitScript (s.slot i).fields.script (fun x => .loadScript x t) := rfl

theorem State.emitScript_reach (s : State) (x : Option Word32) (f : Word32 → OutFrame) :
    s.emitScript x f = { s with prompterTx := (s.emitScript x f).prompterTx } := by
  unfold State.emitScript
  split <;> rfl

theorem State.enteringReady_slot_self (s : State) (t : Track) (i : Slot) : (s.enteringReady t i).slot i = (s.slot i).enterReady :=
  State.setSlot_slot_self _ _ _

/-- An entry into READY reaches the cues of its item, which join the firing list and the queues alone. -/
theorem State.confined_enterReady (hq : s.QueuesIdle) (t : Track) (i : Slot) :
    State.Confined i (fun k => ∃ q, (s.enteringReady t i).cue? i k = some q ∧ q.arms .ready = true) (s.enteringReady t i)
      (s.enterReady t i) := by
  have h := State.confined_armPhase (s := s.enteringReady t i) hq .ready s.sfc i
  rw [State.enterReady_eq, State.emitScript_reach]
  exact ⟨h.others, h.cues, h.firing, h.queues, h.idle⟩

section
variable (hq : s.QueuesIdle) (h : (s.track t).ready = none)
include hq h

theorem State.readyChoice_slot_ne (hj : ((s.readyChoice t).track t).ready ≠ some j) : (s.readyChoice t).slot j = s.slot j := by
  rw [State.readyChoice_chosen h] at hj
  cases hc : (s.candidates t).head? with
  | none => rw [State.readyChoice_none h hc]
  | some i =>
    have hne : j ≠ i := fun e => hj (by rw [hc, e])
    rw [State.readyChoice_some h hc, (State.confined_enterReady hq t i).others j hne]
    exact State.setSlot_slot_ne _ _ _ hne

theorem State.readyChoice_firing {e : Firing} (he : e ∈ (s.readyChoice t).firing)
    (hj : ((s.readyChoice t).track t).ready ≠ some e.slot) : e ∈ s.firing := by
  rw [State.readyChoice_chosen h] at hj
  cases hc : (s.candidates t).head? with
  | none => rwa [State.readyChoice_none h hc] at he
  | some i =>
    rw [State.readyChoice_some h hc] at he
    exact ((State.confined_enterReady hq t i).firing e he).resolve_right fun hs => hj (by rw [hc, hs.1])

theorem State.readyChoice_queues {c : Chan} {x : Queued} (hx : x ∈ ((s.readyChoice t).channel c).queue)
    (hj : ((s.readyChoice t).track t).ready ≠ some x.cue.slot) : x ∈ (s.channel c).queue := by
  rw [State.readyChoice_chosen h] at hj
  cases hc : (s.candidates t).head? with
  | none => rwa [State.readyChoice_none h hc] at hx
  | some i =>
    rw [State.readyChoice_some h hc] at hx
    exact ((State.confined_enterReady hq t i).queues c x hx).resolve_right fun hs => hj (by rw [hc, hs])

/-- A cue of the item chosen that is not of its READY phase stands as its record entered READY. -/
theorem State.readyChoice_cue {q : Cue} (hi : ((s.readyChoice t).track t).ready = some i) (hm : q ∈ ((s.readyChoice t).slot i).cues)
    (hp : q.spec.phase ≠ .ready) : q ∈ (s.slot i).enterReady.cues := by
  rw [State.readyChoice_chosen h] at hi
  rw [State.readyChoice_some h hi] at hm
  have hspecs : ((s.enterReady t i).slot i).cues.map Cue.spec = (s.slot i).enterReady.cues.map Cue.spec := by
    rw [State.enterReady_eq, State.emitScript_slot, ((State.cueLevel_armPhase _ .ready s.sfc i).items i).specs,
      State.enteringReady_slot_self]
  obtain ⟨k, hk⟩ := List.mem_iff_getElem?.mp hm
  have hc := (State.confined_enterReady hq t i).cues k fun ⟨q0, hq0, ha⟩ => by
    rw [State.cue?, State.enteringReady_slot_self] at hq0
    have hs := congrArg (fun l => l[k]?) hspecs
    simp only [List.getElem?_map, hk, hq0, Option.map_some, Option.some.injEq] at hs
    rw [Cue.arms, ← hs] at ha
    simp [hp] at ha
  rw [State.cue?, State.cue?, hk, State.enteringReady_slot_self] at hc
  exact List.mem_of_getElem? hc.symm

end

end Sys2Proof.Machine
end

section
/-! SUPPORT. A track reset up to its READY choice (R55). -/

namespace Sys2Proof.Machine

variable {s u v : State} {t r : Track} {i j : Slot} {g : GroupNo} {c : Chan}

/-! ### The steps -/

/-- The cues that wait of the items of a track withdrawn (R55 step 1). -/
def State.withdrawAll (s : State) (t : Track) : State := (s.order t).foldl State.abandonAll s

/-- The record of a track reset, the lockout with it (R55). -/
def TrackRec.reset (x : TrackRec) : TrackRec := { x with onAir := none, ready := none, lockoutCount := 0, lastTake := none }

/-- A track reset up to the discard of its groups (R55 steps 1 to 4). -/
def State.trackCleared (s : State) (t : Track) : State :=
  let v := (s.withdrawAll t).resetItems (s.order t)
  (v.setTrack t (v.track t).reset).moveStatus t .none

/-- The groups that a reset of the track discards (R37). -/
def State.discardable (s : State) (t : Track) : List GroupNo := (List.finRange 4).filter (fun g => (s.group g).discardedBy t)

/-- A track reset up to its READY choice. -/
def State.returning (s : State) (t : Track) : State :=
  ((s.trackCleared t).discardable t).foldl State.discardGroup (s.trackCleared t)

theorem State.resetTrack_eq (s : State) (t : Track) : s.resetTrack t = (s.keepWatch.returning t).readyChoice t := rfl

theorem State.cueLevel_withdrawAll (s : State) (t : Track) : s.CueLevel (s.withdrawAll t) := s.cueLevel_withdraw_items _

theorem State.trackCleared_eq (s : State) (t : Track) : s.trackCleared t = { s.withdrawAll t with
    slots := ((s.withdrawAll t).resetItems (s.order t)).slots
    tracks := s.tracks.set t (s.track t).reset
    status := s.status.set t .none
    flags := if s.statusOf t = .none then s.flags else s.flags.put (timingEvent t) } := by
  have h := s.cueLevel_withdrawAll t
  have ht : ((s.withdrawAll t).resetItems (s.order t)).tracks = s.tracks := by rw [State.resetItems_eq]; exact h.tracks
  have hs : ((s.withdrawAll t).resetItems (s.order t)).status = s.status := by rw [State.resetItems_eq]; exact h.status
  have hf : ((s.withdrawAll t).resetItems (s.order t)).flags = s.flags := by
    rw [State.resetItems_eq]; exact s.withdraw_items_flags _
  rw [State.trackCleared, State.moveStatus_eq, State.statusOf, State.setTrack_status, hs, State.setTrack_flags, hf, State.track, ht,
    State.setTrack, ht, State.resetItems_eq]
  rfl

theorem State.returning_eq (s : State) (t : Track) : s.returning t = { s.withdrawAll t with
    slots := (s.returning t).slots, groups := (s.returning t).groups, armed := (s.returning t).armed
    tracks := s.tracks.set t (s.track t).reset
    status := s.status.set t .none
    flags := if s.statusOf t = .none then s.flags else s.flags.put (timingEvent t) } := by
  rw [State.returning, State.discards_eq, State.trackCleared_eq]

/-! ### What they leave of the part -/

theorem State.returning_aside (s : State) (t : Track) : s.Aside (s.returning t) := by
  refine (s.cueLevel_withdrawAll t).aside.trans ?_
  rw [State.returning_eq]
  constructor <;> rfl

theorem State.returning_orders (s : State) (t : Track) : (s.returning t).orders = s.orders := by
  rw [State.returning_eq]; exact (s.cueLevel_withdrawAll t).orders

theorem State.returning_readsDone (s : State) (t : Track) : (s.returning t).readsDone = s.readsDone := by
  rw [State.returning_eq]; exact (s.cueLevel_withdrawAll t).readsDone

theorem State.returning_flags (s : State) (t : Track) :
    (s.returning t).flags = if s.statusOf t = .none then s.flags else s.flags.put (timingEvent t) := by rw [State.returning_eq]

theorem State.returning_track_self (s : State) (t : Track) : (s.returning t).track t = (s.track t).reset := by
  rw [State.returning_eq]; exact PerTrack.get_set_self _ _ _

theorem State.returning_track_ne (s : State) (hr : r ≠ t) : (s.returning t).track r = s.track r := by
  rw [State.returning_eq]; exact PerTrack.get_set_ne _ _ hr

theorem State.returning_statusOf_self (s : State) (t : Track) : (s.returning t).statusOf t = .none := by
  rw [State.returning_eq]; exact PerTrack.get_set_self _ _ _

theorem State.returning_statusOf_ne (s : State) (hr : r ≠ t) : (s.returning t).statusOf r = s.statusOf r := by
  rw [State.returning_eq]; exact PerTrack.get_set_ne _ _ hr

/-! ### Its groups (R37) -/

theorem State.trackCleared_group (s : State) (t : Track) (g : GroupNo) : (s.trackCleared t).group g = s.group g := by
  rw [State.trackCleared_eq]
  exact congrArg (fun b => b.get g) (s.cueLevel_withdrawAll t).groups

theorem State.trackCleared_armedQueue (s : State) (t r : Track) : (s.trackCleared t).armedQueue r = s.armedQueue r := by
  rw [State.trackCleared_eq]
  exact congrArg (fun b => b.get r) (s.cueLevel_withdrawAll t).armed

theorem State.mem_discardable : g ∈ (s.trackCleared t).discardable t ↔ (s.group g).track = t ∧ (s.group g).state ≠ .idle := by
  simp [State.discardable, Group.discardedBy, State.trackCleared_group]

theorem State.nodup_discardable (s : State) (t : Track) : (s.discardable t).Nodup := (List.nodup_finRange 4).filter _

theorem State.returning_group_discarded (ht : (s.group g).track = t) (hg : (s.group g).state ≠ .idle) :
    (s.returning t).group g = (s.group g).toIdle .none := by
  rw [State.returning, State.discards_group_of_mem (State.nodup_discardable _ t) (State.mem_discardable.mpr ⟨ht, hg⟩),
    State.trackCleared_group]

theorem State.returning_group_kept (h : (s.group g).track ≠ t ∨ (s.group g).state = .idle) :
    (s.returning t).group g = s.group g := by
  have hn : g ∉ (s.trackCleared t).discardable t := fun hm => by
    obtain ⟨ht, hg⟩ := State.mem_discardable.mp hm
    exact h.elim (fun k => k ht) hg
  rw [State.returning, State.discards_group_of_notMem hn, State.trackCleared_group]

theorem State.returning_queues (hs : s.Sound) (t : Track) :
    (s.returning t).armedQueue t = [] ∧ ∀ r, r ≠ t → (s.returning t).armedQueue r = s.armedQueue r := by
  obtain ⟨h1, h2⟩ := State.discards_queue (s := s.trackCleared t) (t := t) (State.nodup_discardable _ t) fun g hg => by
    rw [State.trackCleared_group]
    exact (State.mem_discardable.mp hg).1
  refine ⟨h1.trans (List.filter_eq_nil_iff.mpr fun g hg => ?_), fun r hr => (h2 r hr).trans (s.trackCleared_armedQueue t r)⟩
  rw [State.trackCleared_armedQueue] at hg
  obtain ⟨ha, ht⟩ := (hs.queues t g).mp hg
  have hm : g ∈ (s.trackCleared t).discardable t := State.mem_discardable.mpr ⟨ht, by rw [ha]; nofun⟩
  simp [hm]

/-! ### Its items -/

theorem State.trackCleared_slot_own (hs : s.Sound) (hi : i ∈ s.order t) :
    (s.trackCleared t).slot i = ((s.withdrawAll t).slot i).resetByTrack := by
  rw [← State.resetItems_slot_of_mem (hs.nodup t) hi, State.trackCleared_eq]
  rfl

theorem State.trackCleared_slot_other (hi : i ∉ s.order t) : (s.trackCleared t).slot i = (s.withdrawAll t).slot i := by
  rw [← State.resetItems_slot_of_notMem hi (s.withdrawAll t), State.trackCleared_eq]
  rfl

/-- An item of an order stands in no slot that a group has reserved (R1, R9). -/
theorem State.Sound.notReserved (hs : s.Sound) (hi : i ∈ s.order r) (g : GroupNo) : i ∉ (s.group g).reserved := fun hg => by
  have hstaged := (hs.staged i).mpr ⟨g, hg⟩
  have hlive := ((hs.orders r i).mp hi).1
  rw [hstaged] at hlive
  nomatch hlive

theorem State.Sound.notOrdered (hs : s.Sound) (hg : i ∈ (s.group g).reserved) (r : Track) : i ∉ s.order r :=
  fun hi => hs.notReserved hi g hg

/-- An item stands in the order of one track (R9). -/
theorem State.Sound.orderApart (hs : s.Sound) (hi : i ∈ s.order r) (hr : r ≠ t) : i ∉ s.order t := fun h =>
  hr (((hs.orders r i).mp hi).2.symm.trans ((hs.orders t i).mp h).2)

theorem State.returning_slot_kept (h : ∀ g, (s.group g).track = t → (s.group g).state ≠ .idle → i ∉ (s.group g).reserved) :
    (s.returning t).slot i = (s.trackCleared t).slot i := by
  refine State.discards_slot_of_notMem (State.nodup_discardable _ t) fun g hg => ?_
  obtain ⟨ht, hn⟩ := State.mem_discardable.mp hg
  rw [State.trackCleared_group]
  exact h g ht hn

theorem State.returning_slot_own (hs : s.Sound) (hi : i ∈ s.order t) :
    (s.returning t).slot i = ((s.withdrawAll t).slot i).resetByTrack := by
  rw [State.returning_slot_kept fun g _ _ => hs.notReserved hi g, State.trackCleared_slot_own hs hi]

theorem State.returning_slot_other (hs : s.Sound) (hi : i ∈ s.order r) (hr : r ≠ t) :
    (s.returning t).slot i = (s.withdrawAll t).slot i := by
  rw [State.returning_slot_kept fun g _ _ => hs.notReserved hi g, State.trackCleared_slot_other (hs.orderApart hi hr)]

theorem State.returning_slot_freed (hs : s.Sound) (ht : (s.group g).track = t) (hg : (s.group g).state ≠ .idle)
    (hi : i ∈ (s.group g).reserved) : (s.returning t).slot i = ((s.withdrawAll t).slot i).freed := by
  have hm := State.mem_discardable.mpr ⟨ht, hg⟩
  have hr : i ∈ ((s.trackCleared t).group g).reserved := by rw [State.trackCleared_group]; exact hi
  rw [State.returning, State.discards_slot_of_mem (State.nodup_discardable _ t) hm hr,
    State.trackCleared_slot_other (hs.notOrdered hi t)]

theorem map_spec_fresh_cues (l : List Cue) : (l.map (fun q => q.spec.fresh)).map Cue.spec = l.map Cue.spec := by
  rw [List.map_map]; rfl

/-- The record of an item that returns to PLANNED, whatever the cues withdrawn have become (R5 to R7, R55). -/
theorem Item.Kept.returned {x y : Item} (k : x.Kept y)
    (h : x.state = .ready ∨ x.state = .onAir ∨ x.state = .done ∨ x.state = .skipped) :
    Item.Alike { x with revision := nextRevision x.revision, start := none, actual := none, prompterEnd := none } y.resetByTrack ∧
      y.resetByTrack.state = .planned ∧ y.resetByTrack.airing = nextAiring x.airing := by
  rw [Item.resetByTrack_returns (by rw [k.state]; exact h)]
  exact ⟨⟨k.condition, congrArg nextRevision k.revision, k.track, k.fields, (map_spec_fresh_cues _).trans k.specs, rfl, rfl, rfl⟩, rfl,
    congrArg nextAiring k.airing⟩

theorem Item.Kept.stays {x y : Item} (k : x.Kept y) (h : x.state = .planned) :
    x.Alike y.resetByTrack ∧ y.resetByTrack.state = .planned ∧ y.resetByTrack.airing = x.airing := by
  have hy : y.state = .planned := k.state.trans h
  rw [Item.resetByTrack_planned hy]
  exact ⟨⟨k.condition, k.revision, k.track, k.fields, (map_spec_fresh_cues _).trans k.specs, k.start, k.actual, k.prompterEnd⟩, hy,
    k.airing⟩

/-! ### The whole of it, where no READY channel has a cue queued -/

section
variable (hs : s.Sound) (hq : s.QueuesIdle)
include hs hq

theorem State.withdrawn_withdrawAll (t : Track) : s.Withdrawn (s.withdrawAll t) (s.order t) :=
  State.withdrawn_abandonAll hq (hs.nodup t)

theorem State.returning_cues (hi : i ∈ s.order t) :
    ((s.returning t).slot i).cues = (s.slot i).cues.map (fun q => q.spec.fresh) ∧ ((s.returning t).slot i).cueFault = false := by
  rw [State.returning_slot_own hs hi, Item.resetByTrack_cues, Item.resetByTrack_cueFault,
    (State.withdrawn_withdrawAll hs hq t).items i hi, map_fresh_abandonedIf]
  exact ⟨rfl, rfl⟩

theorem State.returning_firing (t : Track) : (s.returning t).firing = s.firing.filter (s.staysFiring (s.order t)) := by
  rw [State.returning_eq]; exact (State.withdrawn_withdrawAll hs hq t).firing

theorem State.returning_channel (t : Track) (c : Chan) : (s.returning t).channel c =
    { s.channel c with queue := (s.channel c).queue.filter (s.staysQueued (s.order t) c) } := by
  rw [State.returning_eq]; exact (State.withdrawn_withdrawAll hs hq t).queues c

theorem State.returning_queuesIdle (t : Track) : (s.returning t).QueuesIdle := by
  intro c hc
  rw [State.returning_channel hs hq] at hc ⊢
  simp [hq c hc]

/-- The first five steps of a track reset, in the terms of the statements (R55). -/
theorem State.trackReturned_returning (t : Track) : s.TrackReturned (s.returning t) t where
  returned := fun i hi hst => by
    have hw := (State.withdrawn_withdrawAll hs hq t).items i hi
    rw [State.returning_slot_own hs hi, Item.resetByTrack_returns (by rw [hw]; exact hst), hw, map_fresh_abandonedIf]
  planned := fun i hi hst => by
    have hw := (State.withdrawn_withdrawAll hs hq t).items i hi
    rw [State.returning_slot_own hs hi, Item.resetByTrack_planned (by rw [hw]; exact hst), hw, map_fresh_abandonedIf]
  freed := fun g i ht hg hi => by
    rw [State.returning_slot_freed hs ht hg hi, (State.withdrawn_withdrawAll hs hq t).others i (hs.notOrdered hi t)]
    rfl
  others := fun i hi hr => by
    rw [State.returning_slot_kept hr, State.trackCleared_slot_other hi, (State.withdrawn_withdrawAll hs hq t).others i hi]
  groups := fun g ht hg => State.returning_group_discarded ht hg
  otherGroups := fun g h => State.returning_group_kept h
  queue := (State.returning_queues hs t).1
  otherQueue := (State.returning_queues hs t).2
  track := s.returning_track_self t
  otherTrack := fun r hr => ⟨s.returning_track_ne hr, s.returning_statusOf_ne hr⟩
  status := s.returning_statusOf_self t
  flags := s.returning_flags t
  firing := State.returning_firing hs hq t
  queues := State.returning_channel hs hq t
  rest := by
    have h := (State.withdrawn_withdrawAll hs hq t).rest
    rw [State.returning_eq, h]

end

/-- An entry that stays is of no cue of the track that is ARMED. -/
theorem State.staysFiring_notArmed {l : List Slot} {e : Firing} (h : s.staysFiring l e = true) (hi : e.slot ∈ l) {q : Cue}
    (hc : s.cue? e.slot e.index = some q) : q.state ≠ .armed := by
  intro ha
  simp [State.staysFiring, hi, hc, ha] at h

/-- A queued entry that stays is of no cue of the track QUEUED for its channel. -/
theorem State.staysQueued_notQueued {l : List Slot} {x : Queued} (h : s.staysQueued l c x = true) (hi : x.cue.slot ∈ l) {q : Cue}
    {r : Resolved} (hc : s.cue? x.cue.slot x.cue.index = some q) (hb : q.state = .queued) (hr : q.resolved = some r) :
    r.delivery.channel ≠ c := by
  intro e
  simp [State.staysQueued, hi, hc, hb, hr, e] at h

end Sys2Proof.Machine
end

section
/-! PROOFS. TRACK.RESET (R55, with R5 to R7, R37, R44 and R77). -/

namespace Sys2Proof.Machine

variable {s u v : State} {t r : Track} {i j : Slot} {g : GroupNo} {c : Chan}

/-! ### The reset with its READY choice -/

/-- A track reset, from the state whose watch it has found (R55). -/
def State.returned (s : State) (t : Track) : State := (s.returning t).readyChoice t

theorem State.returning_ready (s : State) (t : Track) : ((s.returning t).track t).ready = none := by
  rw [State.returning_track_self]; rfl

theorem State.choice_returned (s : State) (t : Track) : State.ChoiceLevel t (s.returning t) (s.returned t) :=
  State.choice_readyChoice _ t

theorem State.returned_aside (s : State) (t : Track) : s.Aside (s.returned t) :=
  (s.returning_aside t).trans (s.choice_returned t).aside

theorem State.returned_orders (s : State) (t : Track) : (s.returned t).orders = s.orders :=
  (s.choice_returned t).orders.trans (s.returning_orders t)

theorem State.returned_readsDone (s : State) (t : Track) : (s.returned t).readsDone = s.readsDone :=
  (s.choice_returned t).readsDone.trans (s.returning_readsDone t)

theorem State.returned_track_self (s : State) (t : Track) : (s.returned t).track t = { s.track t with
    onAir := none, ready := ((s.returned t).candidates t).head?, lockoutCount := 0, lastTake := none } := by
  have h : ((s.returned t).track t).ready = ((s.returned t).candidates t).head? := State.readyChoice_head _ t
  rw [(s.choice_returned t).ownTrack, h, State.returning_track_self]
  rfl

theorem State.returned_track_ne (s : State) (hr : r ≠ t) : (s.returned t).track r = s.track r :=
  ((s.choice_returned t).otherTrack r hr).trans (s.returning_track_ne hr)

theorem State.returned_statusOf (s : State) (t r : Track) : (s.returned t).statusOf r = (s.returning t).statusOf r :=
  congrArg (fun p => p.get r) (s.choice_returned t).status

theorem State.returned_group (s : State) (t : Track) (g : GroupNo) : (s.returned t).group g = (s.returning t).group g :=
  congrArg (fun b => b.get g) (s.choice_returned t).groups

/-- The item chosen stands in the track's order. -/
theorem State.returned_chosen (h : ((s.returned t).track t).ready = some i) : i ∈ s.order t := by
  rw [State.returned, State.readyChoice_chosen (s.returning_ready t)] at h
  obtain ⟨hi, -⟩ := State.mem_candidates.mp (List.mem_of_mem_head? h)
  rw [State.afterOnAir, State.returning_track_self] at hi
  have ho : (s.returning t).order t = s.order t := by rw [State.order, State.returning_orders]; rfl
  rw [← ho]
  exact hi

theorem State.returned_notChosen (hs : s.Sound) (hi : i ∈ s.order r) (hr : r ≠ t) : ((s.returned t).track t).ready ≠ some i :=
  fun h => hs.orderApart hi hr (State.returned_chosen h)

/-! ### The TIMING event (R77) -/

/-- A READY choice with no item standing READY raises no TIMING event. -/
theorem State.readyChoice_timing (h : (s.track t).ready = none) (r : Track) :
    (s.readyChoice t).flags.get (timingEvent r) = s.flags.get (timingEvent r) := by
  cases hc : (s.candidates t).head? with
  | none => rw [State.readyChoice_none h hc]
  | some i =>
    have he : timingEvent r ≠ .cueFail := by cases r <;> nofun
    rw [State.readyChoice_some h hc, State.enterReady_eq, State.emitScript_reach]
    exact State.armPhase_flags he _ _ _ _

theorem State.returned_timing (h : s.statusOf t ≠ .none) : (s.returned t).flags.get (timingEvent t) = true := by
  refine (s.choice_returned t).flags _ ?_
  rw [State.returning_flags, if_neg h]
  exact EventSet.get_put_self _ _

theorem State.returned_noTiming (h : s.statusOf t = .none) :
    (s.returned t).flags.get (timingEvent t) = s.flags.get (timingEvent t) := by
  rw [State.returned, State.readyChoice_timing (s.returning_ready t), State.returning_flags, if_pos h]

/-! ### Its items -/

/-- What the READY choice of a reset makes of an item PLANNED before it, by whether it chooses it (R45). -/
theorem State.returned_item {a : Word16} (hp : ((s.returning t).slot i).state = .planned)
    (ha : ((s.returning t).slot i).airing = a) :
    (((s.returned t).track t).ready ≠ some i → ((s.returned t).slot i).state = .planned ∧ ((s.returned t).slot i).airing = a) ∧
    (((s.returned t).track t).ready = some i →
      ((s.returned t).slot i).state = .ready ∧ ((s.returned t).slot i).airing = nextAiring a) := by
  refine ⟨fun hn => ?_, fun hi => ?_⟩
  · exact ⟨(State.readyChoice_state_ne (s.returning_ready t) hn).trans hp,
      (State.readyChoice_airing_ne (s.returning_ready t) hn).trans ha⟩
  · rw [← ha]
    exact State.readyChoice_chosen_item (s.returning_ready t) hi

theorem State.returned_own (hs : s.Sound) (hi : i ∈ s.order t)
    (h : (s.slot i).state = .ready ∨ (s.slot i).state = .onAir ∨ (s.slot i).state = .done ∨ (s.slot i).state = .skipped) :
    Item.Alike { s.slot i with revision := nextRevision (s.slot i).revision, start := none, actual := none, prompterEnd := none }
        ((s.returned t).slot i) ∧
      (((s.returned t).track t).ready ≠ some i →
        ((s.returned t).slot i).state = .planned ∧ ((s.returned t).slot i).airing = nextAiring (s.slot i).airing) ∧
      (((s.returned t).track t).ready = some i →
        ((s.returned t).slot i).state = .ready ∧ ((s.returned t).slot i).airing = nextAiring (nextAiring (s.slot i).airing)) := by
  obtain ⟨hk, hp, ha⟩ := ((s.cueLevel_withdrawAll t).items i).returned h
  rw [← State.returning_slot_own hs hi] at hk hp ha
  exact ⟨hk.trans ((s.choice_returned t).items i), State.returned_item hp ha⟩

theorem State.returned_planned (hs : s.Sound) (hi : i ∈ s.order t) (h : (s.slot i).state = .planned) :
    (s.slot i).Alike ((s.returned t).slot i) ∧
      (((s.returned t).track t).ready ≠ some i →
        ((s.returned t).slot i).state = .planned ∧ ((s.returned t).slot i).airing = (s.slot i).airing) ∧
      (((s.returned t).track t).ready = some i →
        ((s.returned t).slot i).state = .ready ∧ ((s.returned t).slot i).airing = nextAiring (s.slot i).airing) := by
  obtain ⟨hk, hp, ha⟩ := ((s.cueLevel_withdrawAll t).items i).stays h
  rw [← State.returning_slot_own hs hi] at hk hp ha
  exact ⟨hk.trans ((s.choice_returned t).items i), State.returned_item hp ha⟩

theorem State.returned_other (hs : s.Sound) (hi : i ∈ s.order r) (hr : r ≠ t) :
    (s.slot i).Alike ((s.returned t).slot i) ∧ ((s.returned t).slot i).state = (s.slot i).state ∧
      ((s.returned t).slot i).airing = (s.slot i).airing ∧ (s.QueuesIdle → (s.returned t).slot i = s.slot i) := by
  have hk := (s.cueLevel_withdrawAll t).items i
  have hn := State.returned_notChosen hs hi hr
  rw [← State.returning_slot_other hs hi hr] at hk
  refine ⟨hk.alike.trans ((s.choice_returned t).items i), (State.readyChoice_state_ne (s.returning_ready t) hn).trans hk.state,
    (State.readyChoice_airing_ne (s.returning_ready t) hn).trans hk.airing, fun hq => ?_⟩
  rw [State.returned, State.readyChoice_slot_ne (State.returning_queuesIdle hs hq t) (s.returning_ready t) hn,
    State.returning_slot_other hs hi hr, (State.withdrawn_withdrawAll hs hq t).others i (hs.orderApart hi hr)]

/-! ### Its cues -/

/-- A fresh cue is fresh still after its item enters READY (R96). -/
theorem Cue.pend_fresh {q : Cue} (h : q = q.spec.fresh) : (if q.pendsAtReady then q.pend else q) = q := by
  split
  · exact h.symm
  · rfl

theorem Item.enterReady_fresh {x : Item} (h : ∀ q ∈ x.cues, q = q.spec.fresh) : ∀ q ∈ x.enterReady.cues, q = q.spec.fresh := by
  intro q hq
  obtain ⟨p, hp, rfl⟩ := List.mem_map.mp hq
  rw [Cue.pend_fresh (h p hp)]
  exact h p hp

section
variable (hs : s.Sound) (hq : s.QueuesIdle)
include hs hq

theorem State.returned_cues (hi : i ∈ s.order t) (hn : ((s.returned t).track t).ready ≠ some i) :
    ((s.returned t).slot i).cues = (s.slot i).cues.map (fun q => q.spec.fresh) ∧ ((s.returned t).slot i).cueFault = false := by
  rw [State.returned, State.readyChoice_slot_ne (State.returning_queuesIdle hs hq t) (s.returning_ready t) hn]
  exact State.returning_cues hs hq hi

theorem State.returned_chosen_cues (hi : ((s.returned t).track t).ready = some i) :
    ∀ q ∈ ((s.returned t).slot i).cues, q.spec.phase ≠ .ready → q = q.spec.fresh := by
  intro q hm hp
  refine Item.enterReady_fresh (fun p hm' => ?_) q
    (State.readyChoice_cue (State.returning_queuesIdle hs hq t) (s.returning_ready t) hi hm hp)
  rw [(State.returning_cues hs hq (State.returned_chosen hi)).1] at hm'
  obtain ⟨x, -, rfl⟩ := List.mem_map.mp hm'
  rfl

theorem State.returned_firing {e : Firing} (he : e ∈ (s.returned t).firing) (hi : e.slot ∈ s.order t)
    (hn : ((s.returned t).track t).ready ≠ some e.slot) : ∀ q, s.cue? e.slot e.index = some q → q.state ≠ .armed := by
  have hm := State.readyChoice_firing (State.returning_queuesIdle hs hq t) (s.returning_ready t) he hn
  rw [State.returning_firing hs hq] at hm
  exact fun q => State.staysFiring_notArmed (List.mem_filter.mp hm).2 hi

theorem State.returned_queues {x : Queued} (hx : x ∈ ((s.returned t).channel c).queue) (hi : x.cue.slot ∈ s.order t)
    (hn : ((s.returned t).track t).ready ≠ some x.cue.slot) : ∀ q r, s.cue? x.cue.slot x.cue.index = some q → q.state = .queued →
      q.resolved = some r → r.delivery.channel ≠ c := by
  have hm := State.readyChoice_queues (State.returning_queuesIdle hs hq t) (s.returning_ready t) hx hn
  rw [State.returning_channel hs hq] at hm
  exact fun q r => State.staysQueued_notQueued (List.mem_filter.mp hm).2 hi

end

/-! ### TRACK.RESET -/

/-- The state whose watch a TRACK.RESET finds, with the bytes of its transaction shifted out. -/
def State.resetAsked (s : State) : State := (s.select 2).keepWatch

/-- A transaction and the watch reach nothing of the rundown. -/
theorem State.Sound.resetAsked (hs : s.Sound) : s.resetAsked.Sound where
  nodup := hs.nodup
  orders := hs.orders
  staged := hs.staged
  reservedOnce := hs.reservedOnce
  reservedApart := hs.reservedApart
  creates := hs.creates
  lists := hs.lists
  createdFor := hs.createdFor
  drawn := hs.drawn
  idle := hs.idle
  entries := hs.entries
  staging := hs.staging
  queueOnce := hs.queueOnce
  queues := hs.queues
  boundary := hs.boundary
  onAir := hs.onAir
  ready := hs.ready
  first := hs.first

theorem State.InRange.queuesIdle (h : s.InRange) : s.QueuesIdle := fun c => (h.counts c).idle

/-- The state after a TRACK.RESET, with its answer. -/
def State.resetAnswered (s : State) (t : Track) : State :=
  (s.resetAsked.returned t).withBuffer (.ready ⟨.ok, .trackReset ((s.resetAsked.returned t).track t).ready⟩)

theorem State.resetAsked_slot (s : State) (i : Slot) : s.resetAsked.slot i = s.slot i := rfl

theorem State.resetAnswered_slot (s : State) (t : Track) (i : Slot) : (s.resetAnswered t).slot i = (s.resetAsked.returned t).slot i := rfl

theorem State.resetAnswered_track (s : State) (t r : Track) : (s.resetAnswered t).track r = (s.resetAsked.returned t).track r := rfl

theorem exec_trackReset_resets (hp : s.portFree) : exec (.trackReset (trackCode t)) s = .next (s.resetAnswered t) := by
  rw [exec_trackReset hp, State.serveTrackReset, trackOf_code, State.ranged_some, State.resetTrack_eq]
  rfl

theorem exec_trackReset_range (hp : s.portFree) {n : Nat} (h : 2 ≤ n) :
    exec (.trackReset n) s = .next (s.answeredWith 2 .range .empty) := by
  rw [exec_trackReset hp, State.serveTrackReset, trackOf_of_le h, State.ranged_none, State.refuse_buffered]

theorem State.run_resetAsked (s : State) (t : Track) : (s.select 2).RunLevel (s.resetAsked.returned t) :=
  (s.select 2).run_resetTrack t

theorem State.resetAnswered_looks (s : State) (t : Track) : (s.resetAnswered t).looks = s.keepWatch.looks :=
  (s.resetAsked.returned_aside t).looks

theorem State.resetAnswered_aside (s : State) (t : Track) : (s.setLooks (s.resetAnswered t).looks).Aside (s.resetAnswered t) := by
  rw [State.resetAnswered_looks]
  have h0 : (s.setLooks s.keepWatch.looks).Aside s.resetAsked := by constructor <;> rfl
  exact (h0.trans (s.resetAsked.returned_aside t)).trans (State.aside_buffer _ _)

/-- An item that the reset makes eligible is watched from the next frame event (R52). -/
theorem State.resetAnswered_unwatched (hi : i ∉ s.candidates t) : (s.resetAnswered t).watchedHardIn t i = none := by
  rw [← State.keepWatch_unwatched hi, State.watchedHardIn, State.look, State.resetAnswered_looks]
  rfl

theorem State.answers_resetAnswered (s : State) (t : Track) :
    s.Answers (s.resetAnswered t) 2 .ok (.trackReset ((s.resetAnswered t).track t).ready) :=
  ⟨(s.run_resetAsked t).sdoStatus, (s.run_resetAsked t).sdo, rfl⟩

/-- The state as the first step of the reset finds it, in the terms of the statement. -/
theorem State.resetAsked_eq (s : State) (t : Track) :
    ({ s with sdoStatus := (s.resetAnswered t).sdoStatus, sdo := (s.resetAnswered t).sdo } : State).keepWatch = s.resetAsked := by
  obtain ⟨h1, h2, -⟩ := s.answers_resetAnswered t
  rw [h1, h2]
  rfl

end Sys2Proof.Machine

namespace Sys2Proof

open Sys2Proof.Machine

/-- Settles O28: the reset is its first five steps, each told by its own operation, and then a READY choice with no item standing READY. -/
theorem trackResetReturnsTheTrack : Obligations.TrackResetReturnsTheTrack := by
  intro s t hp hsound
  have hs := hsound.resetAsked
  have idle : s.InRange → s.resetAsked.QueuesIdle := fun h => h.queuesIdle
  refine ⟨fun n h => exec_trackReset_range hp h, s.resetAnswered t, exec_trackReset_resets hp, s.resetAsked.returned_orders t,
    s.resetAsked.returned_track_self t, ?status, s.resetAsked.returned_readsDone t, s.resetAnswered_aside t,
    (s.run_resetAsked t).flags, s.resetAnswered_looks t, fun i hi => State.resetAnswered_unwatched hi, s.answers_resetAnswered t,
    fun r hr => ⟨s.resetAsked.returned_track_ne hr, ?otherStatus⟩, fun i hi h => ?own, fun i hi h => ?planned,
    fun i r hr hi => ?other, fun hq => ?steps,
    fun g ht hg => ?discarded, fun g hg => ?kept, fun h => State.returned_timing (s := s.resetAsked) h,
    fun h => State.returned_noTiming (s := s.resetAsked) h, fun hr => ?cues⟩
  case status => exact (s.resetAsked.returned_statusOf t t).trans (s.resetAsked.returning_statusOf_self t)
  case otherStatus => exact (s.resetAsked.returned_statusOf t r).trans (s.resetAsked.returning_statusOf_ne hr)
  case own =>
    rw [State.resetAnswered_slot, State.resetAnswered_track, ← State.resetAsked_slot]
    exact State.returned_own hs hi h
  case planned =>
    rw [State.resetAnswered_slot, State.resetAnswered_track, ← State.resetAsked_slot]
    exact State.returned_planned hs hi h
  case other =>
    rw [State.resetAnswered_slot, ← State.resetAsked_slot]
    exact State.returned_other hs hi hr
  case steps =>
    rw [State.resetAsked_eq]
    exact ⟨s.resetAsked.returning t, State.trackReturned_returning hs hq t, rfl⟩
  case discarded =>
    have h := (s.resetAsked.returned_group t g).trans (State.returning_group_discarded (s := s.resetAsked) ht hg)
    have hu : (s.resetAnswered t).group g = (s.resetAsked.group g).toIdle .none := h
    rw [hu]
    exact ⟨rfl, rfl, rfl, rfl⟩
  case kept => exact (s.resetAsked.returned_group t g).trans (State.returning_group_kept (s := s.resetAsked) (.inl hg))
  case cues =>
    exact ⟨fun i hi hn => State.returned_cues hs (idle hr) hi hn, fun i hi => State.returned_chosen_cues hs (idle hr) hi,
      fun e he hi hn => State.returned_firing hs (idle hr) he hi hn, fun c x hx hi hn => State.returned_queues hs (idle hr) hx hi hn⟩

end Sys2Proof
end

section
/-! SUPPORT. What the blocks' frame work and the presenter unit's learning leave as it is: the time base, the port, the
settings of the part, the routes, the receivers, and the raw levels of the panel inputs (R62, R90). -/

namespace Sys2Proof.Machine

variable {s u v x : State} {w : FrameWork} {d : List FrameWork}

/-! ### What is kept -/

/-- What no block's frame work and no completion learnt from reaches; the event flags only rise. -/
structure State.WorkKept (s u : State) : Prop where
  sfc : u.sfc = s.sfc
  counted : u.counted = s.counted
  reference : u.reference = s.reference
  qualifying : u.qualifying = s.qualifying
  sinceFrame : u.sinceFrame = s.sinceFrame
  sinceTimer : u.sinceTimer = s.sinceTimer
  sincePulse : u.sincePulse = s.sincePulse
  lastTick : u.lastTick = s.lastTick
  routes : u.routes = s.routes
  isGlobal : u.isGlobal = s.isGlobal
  defaultRoute : u.defaultRoute = s.defaultRoute
  buffer : u.buffer = s.buffer
  sdoStatus : u.sdoStatus = s.sdoStatus
  sdo : u.sdo = s.sdo
  mask : u.mask = s.mask
  debounce : u.debounce = s.debounce
  frameRate : u.frameRate = s.frameRate
  deviceRx : u.deviceRx = s.deviceRx
  prompterRx : u.prompterRx = s.prompterRx
  held : u.held = s.held
  pending : u.pending = s.pending
  due : u.due = s.due
  raw : ∀ i, (u.input i).raw = (s.input i).raw
  flags : s.flags.Within u.flags

theorem State.WorkKept.refl (s : State) : s.WorkKept s :=
  ⟨rfl, rfl, rfl, rfl, rfl, rfl, rfl, rfl, rfl, rfl, rfl, rfl, rfl, rfl, rfl, rfl, rfl, rfl, rfl, rfl, rfl, rfl, fun _ => rfl,
   .refl _⟩

theorem State.WorkKept.trans (a : s.WorkKept u) (b : u.WorkKept v) : s.WorkKept v :=
  ⟨b.sfc.trans a.sfc, b.counted.trans a.counted, b.reference.trans a.reference, b.qualifying.trans a.qualifying,
   b.sinceFrame.trans a.sinceFrame, b.sinceTimer.trans a.sinceTimer, b.sincePulse.trans a.sincePulse, b.lastTick.trans a.lastTick,
   b.routes.trans a.routes, b.isGlobal.trans a.isGlobal, b.defaultRoute.trans a.defaultRoute, b.buffer.trans a.buffer,
   b.sdoStatus.trans a.sdoStatus, b.sdo.trans a.sdo, b.mask.trans a.mask, b.debounce.trans a.debounce, b.frameRate.trans a.frameRate,
   b.deviceRx.trans a.deviceRx, b.prompterRx.trans a.prompterRx, b.held.trans a.held, b.pending.trans a.pending, b.due.trans a.due,
   fun i => (b.raw i).trans (a.raw i), a.flags.trans b.flags⟩

theorem State.WorkKept.foldl {α : Type} {f : State → α → State} (h : ∀ (s : State) x, s.WorkKept (f s x)) (l : List α)
    (s : State) : s.WorkKept (l.foldl f s) := by
  induction l generalizing s with
  | nil => exact .refl s
  | cons x l ih => exact (h s x).trans (ih _)

/-- The same, with another list of work still to be done before and after. -/
theorem State.WorkKept.setDue (h : s.WorkKept u) (d : List FrameWork) : (s.setDue d).WorkKept (u.setDue d) :=
  { h with due := rfl }

/-- A change of the panel, the presenters, the gallery outputs and what is the sequencers' own leaves all of it, where the raw levels
stay. -/
theorem State.WorkKept.of_eq
    (h : u = { s with
      panel := u.panel, presenters := u.presenters, lights := u.lights, rotation := u.rotation, displayTx := u.displayTx
      cut := u.cut, looks := u.looks })
    (hr : ∀ i, (u.input i).raw = (s.input i).raw) : s.WorkKept u := by
  rw [h]
  exact ⟨rfl, rfl, rfl, rfl, rfl, rfl, rfl, rfl, rfl, rfl, rfl, rfl, rfl, rfl, rfl, rfl, rfl, rfl, rfl, rfl, rfl, rfl, hr, .refl _⟩

theorem State.Aside.workKept (h : s.Aside u) (hf : s.flags.Within u.flags) (hb : u.buffer = s.buffer)
    (hs : u.sdoStatus = s.sdoStatus) (hd : u.sdo = s.sdo) : s.WorkKept u :=
  ⟨h.sfc, h.counted, h.reference, h.qualifying, h.sinceFrame, h.sinceTimer, h.sincePulse, h.lastTick, h.routes, h.isGlobal,
   h.defaultRoute, hb, hs, hd, h.mask, h.debounce, h.frameRate, h.deviceRx, h.prompterRx, h.held, h.pending, h.due,
   fun i => congrArg (fun b : Bank 7 Panel => (b.get i).raw) h.panel, hf⟩

theorem State.CueLevel.workKept (h : s.CueLevel u) : s.WorkKept u := h.aside.workKept h.flags h.buffer h.sdoStatus h.sdo

/-- What an edit, a take, a skip or a track reset keeps is all of it. -/
theorem State.RunLevel.workKept (h : s.RunLevel u) : s.WorkKept u :=
  have looks : s.WorkKept ((s.setCut u.cut).setLooks u.looks) := .of_eq rfl fun _ => rfl
  looks.trans (h.aside.workKept h.flags h.buffer h.sdoStatus h.sdo)

/-! ### Each block's frame work (R62) -/

/-- A sample leaves an input's raw level (R57). -/
theorem Panel.sample_raw (p : Panel) (n : Nat) : (p.sample n).1.raw = p.raw := by
  unfold Panel.sample
  split
  · rfl
  · split <;> rfl

theorem State.workKept_setInput {i : PanelInput} {p : Panel} (h : p.raw = (s.input i).raw) : s.WorkKept (s.setInput i p) := by
  refine .of_eq rfl fun j => ?_
  rw [State.setInput_input]
  split
  · next e => rw [e, h]
  · rfl

theorem State.workKept_panelWork (s : State) (i : PanelInput) : s.WorkKept (s.panelWork i) := by
  have h : s.WorkKept (s.setInput i ((s.input i).sample s.debounce).1) := State.workKept_setInput (Panel.sample_raw _ _)
  unfold State.panelWork
  dsimp only
  split
  · exact h.trans (State.run_press _ i).workKept
  · exact h

theorem State.workKept_displayWork (s : State) : s.WorkKept s.displayWork := by
  unfold State.displayWork
  split
  · exact .refl _
  · exact .of_eq rfl fun _ => rfl

theorem State.workKept_outputsWork (s : State) : s.WorkKept s.outputsWork := by
  have light (v : State) (p : Pos) : v.WorkKept (v.lightWork p) := .of_eq rfl fun _ => rfl
  have lights : s.WorkKept ((List.finRange 8).foldl State.lightWork s) := .foldl light _ s
  exact lights.trans (State.workKept_displayWork _)

theorem State.workKept_runWork (s : State) (w : FrameWork) : s.WorkKept (s.runWork w) := by
  cases w with
  | panel i => exact s.workKept_panelWork i
  | sequencer t => exact (s.run_sequencerWork t).workKept
  | scheduler => exact s.cueLevel_schedulerWork.workKept
  | channel c => exact (s.cueLevel_channelWork c).workKept
  | status t => exact (s.run_statusWork t).workKept
  | outputs => exact s.workKept_outputsWork

/-! ### Work carried out once, where it is still to be done -/

theorem State.runDue_due (h : w ∈ s.due) : s.runDue w = (s.setDue (s.due.erase w)).runWork w := by
  rw [State.runDue, if_pos (List.contains_iff_mem.mpr h)]

theorem State.runDue_done (h : w ∉ s.due) : s.runDue w = s := by
  rw [State.runDue, if_neg (mt List.contains_iff_mem.mp h)]

theorem State.workKept_runDue (s : State) (w : FrameWork) : (s.setDue (s.due.erase w)).WorkKept (s.runDue w) := by
  by_cases h : w ∈ s.due
  · rw [State.runDue_due h]
    exact State.workKept_runWork _ w
  · rw [State.runDue_done h, List.erase_of_not_mem h]
    exact .refl s

/-- Several blocks' work leaves due what none of it names. -/
theorem State.workKept_works (l : List FrameWork) (s : State) : (s.setDue (s.due.diff l)).WorkKept (l.foldl State.runDue s) := by
  induction l generalizing s with
  | nil => exact .refl s
  | cons w l ih =>
    have first := s.workKept_runDue w
    have rest := ih (s.runDue w)
    rw [first.due] at rest
    rw [List.diff_cons]
    exact (first.setDue _).trans rest

theorem State.works_of_nothing_due (h : s.due = []) (l : List FrameWork) : l.foldl State.runDue s = s := by
  induction l with
  | nil => rfl
  | cons w l ih => rw [List.foldl_cons, State.runDue_done (by simp [h]), ih]

theorem State.workCarried_works (l : List FrameWork) (s : State) : s.WorkCarried l (l.foldl State.runDue s) := by
  induction l generalizing s with
  | nil => exact .nil s
  | cons w l ih =>
    rw [List.foldl_cons]
    by_cases h : w ∈ s.due
    · rw [State.runDue_due h]
      exact .done h (ih _)
    · rw [State.runDue_done h]
      exact .none h (ih s)

/-! ### The completions learnt from (R90) -/

theorem State.workKept_learnFrom (s : State) (d : ReadDone) : s.WorkKept (s.learnFrom d) := by
  unfold State.learnFrom
  split
  · exact .refl s
  · next p _ =>
    have record (y : Presenter) : s.WorkKept (s.setPresenter p y) := .of_eq rfl fun _ => rfl
    dsimp only
    split
    · split
      · exact (record _).trans (State.cueLevel_raise _ _).workKept
      · exact record _
    · exact .refl s

theorem State.workKept_setReadsDone (s : State) (l : List ReadDone) : s.WorkKept (s.setReadsDone l) :=
  (State.sequencer_setReadsDone s l).run.workKept

theorem State.workKept_takeAllReadDone (s : State) : s.WorkKept s.takeAllReadDone :=
  (s.workKept_setReadsDone []).trans (.foldl State.workKept_learnFrom _ _)

/-- Learning from a completion neither reads nor writes the list it was taken from. -/
theorem State.learnFrom_setReadsDone (s : State) (d : ReadDone) (l : List ReadDone) :
    (s.setReadsDone l).learnFrom d = (s.learnFrom d).setReadsDone l := by
  unfold State.learnFrom
  split
  · rfl
  · dsimp only [State.setReadsDone_presenter]
    split
    · split <;> rfl
    · rfl

theorem State.takeReadDone_cons {d : ReadDone} {l : List ReadDone} (h : s.readsDone = d :: l) :
    s.takeReadDone = (s.learnFrom d).setReadsDone l := by
  rw [State.takeReadDone, h]
  exact s.learnFrom_setReadsDone d l

theorem State.takeAllReadDone_nil (h : s.readsDone = []) : s.takeAllReadDone = s := by
  rw [State.takeAllReadDone, h, List.foldl_nil, ← h]
  rfl

theorem State.takeAllReadDone_cons {d : ReadDone} {l : List ReadDone} (h : s.readsDone = d :: l) :
    s.takeAllReadDone = s.takeReadDone.takeAllReadDone := by
  rw [State.takeReadDone_cons h, State.takeAllReadDone, State.takeAllReadDone, h, List.foldl_cons, State.learnFrom_setReadsDone]
  rfl

theorem exec_presenterCompletion_eq (hh : s.held = false) : exec .presenterCompletion s = .next s.takeReadDone :=
  congrArg Host.Outcome.next (State.unlessHeld_free hh _)

/-- The whole list taken at once is its completions taken one after another, from its head (R90). -/
theorem State.learnt_takeAllReadDone (hh : s.held = false) : s.Learnt s.takeAllReadDone := by
  generalize hl : s.readsDone = l
  induction l generalizing s with
  | nil =>
    rw [State.takeAllReadDone_nil hl]
    exact .nil hl
  | cons d l ih =>
    rw [State.takeAllReadDone_cons hl]
    have head := State.takeReadDone_cons hl
    refine .cons (by simp [hl]) (exec_presenterCompletion_eq hh) (ih ?_ ?_)
    · rw [head]
      exact (s.workKept_learnFrom d).held.trans hh
    · rw [head]
      rfl

end Sys2Proof.Machine
end

section
/-! SUPPORT. A frame event: the frame counted and the pins sampled, and what it makes of a state in which only the time base has moved
(R57, R62, R65, R66, R90). -/

namespace Sys2Proof.Machine

variable {s u x : State} {e : FrameEvent} {y : Look} {t : Track}

/-! ### The pins sampled (R57) -/

/-- One pin sampled. -/
def State.samplePin (raw : BitVec 7) (s : State) (i : PanelInput) : State :=
  s.setInput i { s.input i with raw := raw.getLsbD i.val }

theorem State.samplePins_eq_foldl (s : State) (raw : BitVec 7) :
    s.samplePins raw = (List.finRange 7).foldl (State.samplePin raw) s := rfl

theorem State.foldl_samplePin_eq (raw : BitVec 7) (l : List PanelInput) (s : State) :
    l.foldl (State.samplePin raw) s = { s with panel := (l.foldl (State.samplePin raw) s).panel } := by
  induction l generalizing s with
  | nil => rfl
  | cons i l ih => rw [List.foldl_cons, ih]; rfl

theorem State.foldl_samplePin_input (raw : BitVec 7) (l : List PanelInput) (s : State) (j : PanelInput) :
    (l.foldl (State.samplePin raw) s).input j = if j ∈ l then { s.input j with raw := raw.getLsbD j.val } else s.input j := by
  induction l generalizing s with
  | nil => simp
  | cons i l ih =>
    rw [List.foldl_cons, ih, State.samplePin, State.setInput_input]
    by_cases h : j = i
    · subst h; simp
    · simp [h]

theorem State.samplePins_eq (s : State) (raw : BitVec 7) : s.samplePins raw = { s with panel := (s.samplePins raw).panel } :=
  State.foldl_samplePin_eq raw _ s

theorem State.samplePins_input (s : State) (raw : BitVec 7) (i : PanelInput) :
    (s.samplePins raw).input i = { s.input i with raw := raw.getLsbD i.val } := by
  rw [State.samplePins_eq_foldl, State.foldl_samplePin_input, if_pos (List.mem_finRange i)]

/-! ### Every block's work (R62) -/

theorem mem_allWork (w : FrameWork) : w ∈ allWork := by
  cases w with
  | panel i => simp [allWork]
  | channel c => simp [allWork]
  | sequencer t => cases t <;> simp [allWork]
  | status t => cases t <;> simp [allWork]
  | scheduler | outputs => simp [allWork]

theorem nodup_allWork : allWork.Nodup := by decide

/-! ### The frame counted (R62) -/

/-- The frame counted, with the pins sampled and every block's work to be done. -/
def State.counting (s : State) (e : FrameEvent) : State :=
  ((s.countFrame.samplePins e.raw).setDue allWork).setCut ⟨false, false⟩

theorem State.frameEvent_eq (s : State) (e : FrameEvent) :
    s.frameEvent e = e.now.foldl State.runDue (s.settle.takeAllReadDone.counting e) := rfl

theorem State.counting_eq (s : State) (e : FrameEvent) : s.counting e = { s with
    sfc := s.sfc + 1, counted := s.sfc + 1, sinceFrame := 0, panel := (s.countFrame.samplePins e.raw).panel, due := allWork
    cut := ⟨false, false⟩, looks := ⟨s.lookNow .a, s.lookNow .b⟩ } := by
  have h := s.countFrame.samplePins_eq e.raw
  rw [State.counting]
  generalize s.countFrame.samplePins e.raw = v at h ⊢
  rw [h]
  rfl

theorem State.counting_due (s : State) (e : FrameEvent) : (s.counting e).due = allWork := by rw [State.counting_eq]

theorem State.counting_pin (s : State) (e : FrameEvent) (i : PanelInput) :
    (s.counting e).panel.get i = { s.panel.get i with raw := e.raw.getLsbD i.val } := by
  have h := s.countFrame.samplePins_input e.raw i
  rw [State.input] at h
  rw [State.counting_eq, h]
  rfl

theorem State.counts_counting (s : State) (e : FrameEvent) : s.Counts (s.counting e) e := by
  have looks (t : Track) : (s.counting e).look t = s.lookNow t := by
    rw [State.counting_eq]
    cases t <;> rfl
  refine ⟨?_, fun i => ?_, fun t => ?_, ?_⟩
  · rw [State.counting_due]
    exact ⟨mem_allWork, nodup_allWork⟩
  · exact s.counting_pin e i
  · rw [looks]
    exact s.lookNow_looksAt t
  · rw [State.counting_eq]

/-- What frame work has kept until the frame is counted is kept apart from the count and the pins. -/
theorem State.WorkKept.counting (h : s.WorkKept u) (e : FrameEvent) :
    ({ s with
        sfc := s.sfc + 1, counted := s.sfc + 1, sinceFrame := 0, panel := (s.counting e).panel, due := allWork } : State).WorkKept
      (u.counting e) := by
  have raw (i : PanelInput) : ((u.counting e).panel.get i).raw = ((s.counting e).panel.get i).raw := by
    rw [State.counting_pin, State.counting_pin]
  rw [(u.counts_counting e).rest]
  exact ⟨congrArg (· + 1) h.sfc, congrArg (· + 1) h.sfc, h.reference, h.qualifying, rfl, h.sinceTimer, h.sincePulse, h.lastTick,
    h.routes, h.isGlobal, h.defaultRoute, h.buffer, h.sdoStatus, h.sdo, h.mask, h.debounce, h.frameRate, h.deviceRx, h.prompterRx,
    h.held, h.pending, (u.counting_due e), raw, h.flags⟩

/-- Beside the count, the pins and the work due, a frame event leaves what frame work leaves. -/
theorem State.WorkKept.frameEvent (h : s.WorkKept x) (e : FrameEvent) :
    ({ s with
        sfc := s.sfc + 1, counted := s.sfc + 1, sinceFrame := 0, panel := (s.counting e).panel
        due := allWork.diff e.now } : State).WorkKept (x.frameEvent e) := by
  have settled := (h.setDue _).trans (x.workKept_works allWork)
  have counted := (settled.trans x.settle.workKept_takeAllReadDone).counting e
  exact (counted.setDue _).trans (State.workKept_works e.now (x.settle.takeAllReadDone.counting e))

theorem State.frameEvent_due (s : State) (e : FrameEvent) (w : FrameWork) : w ∈ (s.frameEvent e).due ↔ w ∉ e.now := by
  rw [((State.WorkKept.refl s).frameEvent e).due, nodup_allWork.mem_sdiff_iff]
  exact and_iff_right (mem_allWork w)

theorem State.frameEvent_raw (s : State) (e : FrameEvent) (i : PanelInput) :
    ((s.frameEvent e).input i).raw = e.raw.getLsbD i.val := by
  rw [((State.WorkKept.refl s).frameEvent e).raw, State.input]
  show ((s.counting e).panel.get i).raw = _
  rw [State.counting_pin]

/-- With nothing left over and no work named, a frame event counts the frame and no more. -/
theorem State.frameEvent_alone (hd : s.due = []) (hr : s.readsDone = []) (hn : e.now = []) : s.frameEvent e = s.counting e := by
  have h : s.settle = s := State.works_of_nothing_due hd allWork
  rw [State.frameEvent_eq, h, State.takeAllReadDone_nil hr, hn, List.foldl_nil]

/-! ### A frame event after the time base has moved (R65, R66) -/

/-- Only the time base has moved, and REFERENCE is raised where the reference state has changed. -/
def State.Reclocked (s x : State) : Prop :=
  x = { s with
    reference := x.reference, qualifying := x.qualifying, sinceFrame := x.sinceFrame, sinceTimer := x.sinceTimer
    sincePulse := x.sincePulse, lastTick := x.lastTick
    flags := if x.reference = s.reference then s.flags else s.flags.put .reference }

/-- The reference state has not changed. -/
theorem State.Reclocked.same
    (h : x = { s with
      qualifying := x.qualifying, sinceFrame := x.sinceFrame, sinceTimer := x.sinceTimer, sincePulse := x.sincePulse
      lastTick := x.lastTick }) : s.Reclocked x := by
  have hr : x.reference = s.reference := by rw [h]
  rw [State.Reclocked, if_pos hr, hr]
  exact h

/-- The reference state has changed. -/
theorem State.Reclocked.changed (hr : x.reference ≠ s.reference)
    (h : x = { s with
      reference := x.reference, qualifying := x.qualifying, sinceFrame := x.sinceFrame, sinceTimer := x.sinceTimer
      sincePulse := x.sincePulse, lastTick := x.lastTick, flags := s.flags.put .reference }) : s.Reclocked x := by
  rw [State.Reclocked, if_neg hr]
  exact h

theorem State.Reclocked.workKept (h : s.Reclocked x) :
    ({ s with
        reference := x.reference, qualifying := x.qualifying, sinceFrame := x.sinceFrame, sinceTimer := x.sinceTimer
        sincePulse := x.sincePulse, lastTick := x.lastTick } : State).WorkKept x := by
  have flags : s.flags.Within (if x.reference = s.reference then s.flags else s.flags.put .reference) := by
    split
    · exact .refl _
    · exact EventSet.within_put _ _
  rw [h]
  exact { State.WorkKept.refl _ with flags := flags }

/-- What a sequencer is given to look at does not depend on the time base. -/
theorem State.Reclocked.looksAt (h : s.Reclocked x) (hl : x.LooksAt t y) : s.LooksAt t y := by
  rw [h] at hl
  exact ⟨hl.takeDelay, hl.hostHold, hl.auto, hl.hardIns⟩

/-- A frame counted alone changes the time base and the pins, beside what is due and looked at. -/
theorem State.Reclocked.counted (h : s.Reclocked x) (hc : x.Counts u e) :
    u = { s with
      sfc := u.sfc, reference := u.reference, qualifying := u.qualifying, sinceFrame := u.sinceFrame, sinceTimer := u.sinceTimer
      sincePulse := u.sincePulse, lastTick := u.lastTick, panel := u.panel, flags := u.flags, due := u.due, cut := u.cut
      counted := u.counted, looks := u.looks } ∧
    (∀ t, s.LooksAt t (u.look t)) ∧
    ∀ i, (u.input i).active = (s.input i).active ∧ (u.input i).count = (s.input i).count := by
  have hi (i : PanelInput) : x.input i = s.input i := by
    rw [h]
    rfl
  refine ⟨?_, fun t => h.looksAt (hc.looks t), fun i => ?_⟩
  · have rest := hc.rest
    rw [h] at rest
    rw [rest]
  · rw [hc.pins, hi]
    exact ⟨rfl, rfl⟩

/-- A frame event made with the time base moved is a frame counted (R62). -/
theorem State.frameCounted_frameEvent (h : s.Reclocked x) (hh : s.held = false) (e : FrameEvent) :
    s.FrameCounted (x.frameEvent e) e := by
  have k := h.workKept.frameEvent e
  refine ⟨k.sfc, k.counted, k.sinceFrame, x.frameEvent_due e, x.frameEvent_raw e, k.flags, k.buffer, k.sdoStatus, k.sdo,
    k.mask, k.debounce, k.frameRate, k.routes, k.isGlobal, k.defaultRoute, k.deviceRx, k.prompterRx, k.held, k.pending,
    fun hn => ?cut, ?works, fun hd hr hn => ?alone⟩
  case cut => rw [State.frameEvent_eq, hn, List.foldl_nil, State.counting_eq]
  case works =>
    have held : x.settle.held = false := ((h.workKept.setDue _).trans (x.workKept_works allWork)).held.trans hh
    refine ⟨x, x.settle, x.settle.takeAllReadDone, x.settle.takeAllReadDone.counting e, ?_, State.workCarried_works allWork x,
      State.learnt_takeAllReadDone held, State.counts_counting _ e, State.workCarried_works e.now _⟩
    rw [k.reference, k.qualifying, k.sinceTimer, k.sincePulse, k.lastTick]
    exact h
  case alone =>
    rw [State.frameEvent_alone (by rw [h, hd]) (by rw [h, hr]) hn]
    exact h.counted (x.counts_counting e)

/-- A frame event leaves the reference, the qualifying count, the timers but its own, and whether it was a tick (R62). -/
theorem State.frameEvent_timeBase (x : State) (e : FrameEvent) : (x.frameEvent e).timeBase = x.timeBase := by
  have k := (State.WorkKept.refl x).frameEvent e
  rw [State.timeBase, k.reference, k.qualifying, k.sinceTimer, k.sincePulse, k.lastTick]
  rfl

end Sys2Proof.Machine
end

section
/-! PROOFS. The time base: its requests, its own frame events, and the pulses (R62, R64 to R69). -/

namespace Sys2Proof.Machine

variable {s : State} {e : FrameEvent} {dt n : Nat}

/-! ### The time base requests (R68, R69) -/

theorem exec_timeSet (h : s.portFree) (v : Nat) :
    exec (.timeSet v) s = .next ((s.select 5).serveTimeSet v).buffered := exec_atPort rfl nofun h

theorem exec_timeRead (h : s.portFree) : exec .timeRead s = .next ((s.select 1).serveTimeRead).buffered := exec_atPort rfl nofun h

/-! ### The time base's own events (R65, R66) -/

theorem exec_flywheelTick (hh : s.held = false) (e : FrameEvent) : exec (.flywheelTick e) s = .next (s.flywheelExpiry e) :=
  congrArg Host.Outcome.next (State.unlessHeld_free hh _)

theorem exec_referenceLoss (hh : s.held = false) (e : FrameEvent) : exec (.referenceLoss e) s = .next (s.lossExpiry e) :=
  congrArg Host.Outcome.next (State.unlessHeld_free hh _)

theorem exec_refPulse (hh : s.held = false) (dt : Nat) (e : FrameEvent) : exec (.refPulse dt e) s = .next (s.pulseAfter dt e) :=
  congrArg Host.Outcome.next (State.unlessHeld_free hh _)

theorem State.untilOwn_flywheel (h : s.reference = .flywheel) : s.untilOwn = s.period - s.sinceTimer := by
  rw [State.untilOwn, h]

theorem State.untilOwn_locked (h : s.reference = .locked) : s.untilOwn = 5 * s.frameRate.quarter - s.sinceFrame := by
  rw [State.untilOwn, h]

theorem State.flywheelExpiry_flywheel (h : s.reference = .flywheel) (e : FrameEvent) :
    s.flywheelExpiry e = (s.advance s.untilOwn).tick e := by
  rw [State.flywheelExpiry, h]

theorem State.flywheelExpiry_locked (h : s.reference = .locked) (e : FrameEvent) : s.flywheelExpiry e = s := by
  rw [State.flywheelExpiry, h]

theorem State.lossExpiry_locked (h : s.reference = .locked) (e : FrameEvent) :
    s.lossExpiry e = (s.advance s.untilOwn).loseReference e := by
  rw [State.lossExpiry, h]

theorem State.lossExpiry_flywheel (h : s.reference = .flywheel) (e : FrameEvent) : s.lossExpiry e = s := by
  rw [State.lossExpiry, h]

theorem State.frameCounted_tick (hh : s.held = false) (n : Nat) (e : FrameEvent) : s.FrameCounted ((s.advance n).tick e) e :=
  State.frameCounted_frameEvent (.same rfl) hh e

theorem State.tick_timeBase (s : State) (e : FrameEvent) :
    (s.tick e).timeBase = (s.reference, s.qualifying, 0, s.sincePulse, true) := State.frameEvent_timeBase _ e

theorem State.frameCounted_loseReference (hr : s.reference = .locked) (hh : s.held = false) (n : Nat) (e : FrameEvent) :
    s.FrameCounted ((s.advance n).loseReference e) e :=
  State.frameCounted_frameEvent (.changed (by rw [hr]; nofun) rfl) hh e

theorem State.loseReference_timeBase (s : State) (e : FrameEvent) :
    (s.loseReference e).timeBase = (.flywheel, 0, 0, s.sincePulse, true) := State.frameEvent_timeBase _ e

/-- The event flags set before a frame event stand after it. -/
theorem State.frameEvent_flags (s : State) (e : FrameEvent) : s.flags.Within (s.frameEvent e).flags :=
  ((State.WorkKept.refl s).frameEvent e).flags

theorem State.loseReference_raises (s : State) (e : FrameEvent) : (s.loseReference e).flags.get .reference = true :=
  State.frameEvent_flags _ e _ (EventSet.get_put_self s.flags .reference)

/-! ### The own event that falls due while time passes (R65, R66) -/

/-- The state after the time base's own next event, as it is made while a pulse is awaited. -/
def State.nextOwn (s : State) : State := (s.advance s.untilOwn).ownEvent s.sameEvent

theorem State.nextOwn_flywheel (h : s.reference = .flywheel) : s.nextOwn = s.flywheelExpiry s.sameEvent := by
  rw [State.nextOwn, State.ownEvent, show (s.advance s.untilOwn).reference = .flywheel from h, State.flywheelExpiry_flywheel h]

theorem State.nextOwn_locked (h : s.reference = .locked) : s.nextOwn = s.lossExpiry s.sameEvent := by
  rw [State.nextOwn, State.ownEvent, show (s.advance s.untilOwn).reference = .locked from h, State.lossExpiry_locked h]

/-- The flywheel timer has just started again. -/
def State.TimerStarts (s : State) : Prop := s.reference = .flywheel ∧ s.sinceTimer = 0

theorem State.ownEvent_starts (s : State) (e : FrameEvent) : (s.ownEvent e).TimerStarts := by
  unfold State.ownEvent
  split
  · next h =>
    have k := State.tick_timeBase s e
    simp only [State.timeBase, Prod.mk.injEq] at k
    obtain ⟨reference, -, timer, -⟩ := k
    exact ⟨reference.trans h, timer⟩
  · have k := State.loseReference_timeBase s e
    simp only [State.timeBase, Prod.mk.injEq] at k
    obtain ⟨reference, -, timer, -⟩ := k
    exact ⟨reference, timer⟩

theorem State.ownEvent_held (s : State) (e : FrameEvent) : (s.ownEvent e).held = s.held := by
  unfold State.ownEvent
  split <;> exact ((State.WorkKept.refl _).frameEvent e).held

theorem State.ownEvent_period (s : State) (e : FrameEvent) : (s.ownEvent e).period = s.period := by
  have h : (s.ownEvent e).frameRate = s.frameRate := by
    unfold State.ownEvent
    split <;> exact ((State.WorkKept.refl _).frameEvent e).frameRate
  rw [State.period, h]
  rfl

theorem State.elapse_within (h : dt ≤ s.untilOwn) (fuel : Nat) : State.elapse fuel dt s = s.advance dt := by
  cases fuel with
  | zero => rfl
  | succ fuel => rw [State.elapse, if_neg (Nat.not_lt.mpr h)]

theorem State.elapse_past (h : s.untilOwn < dt) (fuel : Nat) :
    State.elapse (fuel + 1) dt s = State.elapse fuel (dt - s.untilOwn) s.nextOwn := by
  rw [State.elapse, if_pos h]
  rfl

theorem State.period_pos (s : State) : 0 < s.period := by
  unfold State.period
  cases s.frameRate <;> decide

theorem State.TimerStarts.untilOwn (h : s.TimerStarts) : s.untilOwn = s.period := by
  rw [State.untilOwn_flywheel h.1, h.2, Nat.sub_zero]

/-- From a timer's start a tick falls once in each period, so that any fuel for as many as the time holds gives the same. -/
theorem State.elapse_fuel {f g : Nat} (h : s.TimerStarts) (hf : dt / s.period ≤ f) (hg : dt / s.period ≤ g) :
    State.elapse f dt s = State.elapse g dt s := by
  induction f generalizing g dt s with
  | zero =>
    have within : dt ≤ s.untilOwn :=
      h.untilOwn ▸ ((Nat.div_eq_zero_iff_lt s.period_pos).mp (Nat.le_zero.mp hf)).le
    rw [State.elapse_within within, State.elapse_within within]
  | succ f ih =>
    rcases Nat.lt_or_ge s.untilOwn dt with past | within
    · have one : dt / s.period = (dt - s.period) / s.period + 1 := Nat.div_eq_sub_div s.period_pos (h.untilOwn ▸ past.le)
      have period : s.nextOwn.period = s.period := State.ownEvent_period _ _
      rw [one] at hf hg
      cases g with
      | zero => exact absurd hg (Nat.not_succ_le_zero _)
      | succ g =>
        rw [State.elapse_past past, State.elapse_past past, h.untilOwn]
        refine ih (State.ownEvent_starts _ _) ?_ ?_ <;> rw [period]
        · exact Nat.le_of_succ_le_succ hf
        · exact Nat.le_of_succ_le_succ hg
    · rw [State.elapse_within within, State.elapse_within within]

/-- A pulse that comes later than the next own event is one that comes so much later after it. -/
theorem State.pulseAfter_past (h : s.untilOwn < dt) (e : FrameEvent) :
    s.pulseAfter dt e = s.nextOwn.pulseAfter (dt - s.untilOwn) e := by
  have period : s.nextOwn.period = s.period := State.ownEvent_period _ _
  have fuel : (dt - s.untilOwn) / s.period ≤ dt / s.period := Nat.div_le_div_right (Nat.sub_le _ _)
  rw [State.pulseAfter, State.pulseAfter, State.elapse_past h,
    State.elapse_fuel (s := s.nextOwn) (State.ownEvent_starts _ _) (by rw [period]; omega) (Nat.le_add_right _ 2)]

theorem State.pulseAfter_within (h : dt ≤ s.untilOwn) (e : FrameEvent) : s.pulseAfter dt e = (s.advance dt).pulse e := by
  rw [State.pulseAfter, State.elapse_within h]

/-- The levels that the own event samples are those last sampled (R57). -/
theorem State.sameEvent_raw (s : State) (i : PanelInput) : s.sameEvent.raw.getLsbD i.val = (s.input i).raw := by
  have hi := i.isLt
  rw [State.sameEvent, BitVec.getLsbD_setWidth, BitVec.getLsbD_ofBoolListLE]
  simp [State.input, Bank.get, s.panel.size]

/-! ### Pulses (R65, R66) -/

theorem State.pulseCounts_iff : s.pulseCounts = true ↔ 2 * s.frameRate.quarter ≤ s.sinceFrame := decide_eq_true_iff

theorem State.pulse_locked_counts (hr : s.reference = .locked) (hc : 2 * s.frameRate.quarter ≤ s.sinceFrame) (e : FrameEvent) :
    s.pulse e = ({ s with lastTick := false, sincePulse := 0 } : State).frameEvent e := by
  rw [State.pulse, hr]
  exact if_pos (State.pulseCounts_iff.mpr hc)

theorem State.pulse_locked_early (hr : s.reference = .locked) (hc : s.sinceFrame < 2 * s.frameRate.quarter) (e : FrameEvent) :
    s.pulse e = s := by
  rw [State.pulse, hr]
  exact if_neg (mt State.pulseCounts_iff.mp (Nat.not_le.mpr hc))

theorem State.pulse_flywheel_counts (hr : s.reference = .flywheel) (hc : 2 * s.frameRate.quarter ≤ s.sinceFrame) (e : FrameEvent) :
    s.pulse e = ({ s.qualify with sinceTimer := 0, lastTick := false } : State).frameEvent e := by
  rw [State.pulse, hr]
  exact if_pos (State.pulseCounts_iff.mpr hc)

theorem State.pulse_flywheel_afterTick (hr : s.reference = .flywheel) (hc : s.sinceFrame < 2 * s.frameRate.quarter)
    (ht : s.lastTick = true) (e : FrameEvent) : s.pulse e = { s.qualify with sinceTimer := 0 } := by
  rw [State.pulse, hr]
  exact (if_neg (mt State.pulseCounts_iff.mp (Nat.not_le.mpr hc))).trans (if_pos ht)

theorem State.pulse_flywheel_afterPulse (hr : s.reference = .flywheel) (hc : s.sinceFrame < 2 * s.frameRate.quarter)
    (ht : s.lastTick = false) (e : FrameEvent) : s.pulse e = { s with qualifying := 0 } := by
  rw [State.pulse, hr]
  exact (if_neg (mt State.pulseCounts_iff.mp (Nat.not_le.mpr hc))).trans (if_neg (ht ▸ Bool.false_ne_true))

/-- The length of the run that a pulse continues or starts (R66). -/
def State.runLength (s : State) : Nat := if s.pulseRegular then s.qualifying + 1 else 1

theorem State.runLength_eq (s : State) : s.runLength =
    if s.qualifying ≠ 0 ∧ 3 * s.frameRate.quarter ≤ s.sincePulse ∧ s.sincePulse ≤ 5 * s.frameRate.quarter
    then s.qualifying + 1 else 1 := by
  simp [State.runLength, State.pulseRegular, and_assoc]

theorem State.qualify_runs (h : s.runLength < 4) : s.qualify = { s with qualifying := s.runLength, sincePulse := 0 } := by
  unfold State.runLength at h ⊢
  unfold State.qualify
  split at h
  · next hp => rw [if_pos hp, if_pos hp, if_pos h]
  · next hp => rw [if_neg hp, if_neg hp]

theorem State.qualify_relocks (h : 4 ≤ s.runLength) :
    s.qualify = { s with reference := .locked, qualifying := 0, sincePulse := 0, flags := s.flags.put .reference } := by
  unfold State.runLength at h
  unfold State.qualify
  split at h
  · next hp =>
    rw [if_pos hp, if_neg (Nat.not_lt.mpr h)]
    rfl
  · omega

/-- A pulse that qualifies moves the time base alone (R66). -/
theorem State.reclocked_qualify (hr : s.reference = .flywheel) : s.Reclocked s.qualify := by
  rcases Nat.lt_or_ge s.runLength 4 with h | h
  · rw [State.qualify_runs h]
    exact .same rfl
  · rw [State.qualify_relocks h]
    exact .changed (by rw [hr]; nofun) rfl

/-- The timer started again besides. -/
theorem State.Reclocked.timer {x : State} (h : s.Reclocked x) (n : Nat) (b : Bool) :
    s.Reclocked { x with sinceTimer := n, lastTick := b } :=
  congrArg (fun z : State => ({ z with sinceTimer := n, lastTick := b } : State)) h

/-- Time passed is the time base moved. -/
theorem State.Reclocked.of_advance {x : State} (h : (s.advance dt).Reclocked x) : s.Reclocked x := h

end Sys2Proof.Machine

namespace Sys2Proof

open Sys2Proof.Machine

/-- Settles O32: each request's rule, served at a free port. -/
theorem timeRequestsSetAndReadTheCount : Obligations.TimeRequestsSetAndReadTheCount := by
  intro s hp
  refine ⟨fun v hv => ⟨_, exec_timeSet hp v, ?_, rfl⟩, fun h => ?_, fun h => ?_⟩
  · exact (BitVec.toNat_ofNat v 32).trans (Nat.mod_eq_of_lt hv)
  · rw [exec_timeRead hp, State.serveTimeRead, show (s.select 1).reference = .flywheel from h]
    rfl
  · rw [exec_timeRead hp, State.serveTimeRead, show (s.select 1).reference = .locked from h]
    rfl

/-- Settles O33: both events are a frame event made of a state in which only the time base has moved. -/
theorem ownFrameEventsCountOneFrame : Obligations.OwnFrameEventsCountOneFrame := by
  intro s e hh
  rw [exec_flywheelTick hh, exec_referenceLoss hh]
  refine ⟨fun h => ?_, fun h => ?_⟩
  · rw [State.flywheelExpiry_flywheel h, State.lossExpiry_flywheel h, ← State.untilOwn_flywheel h, ← h]
    exact ⟨⟨_, rfl, State.frameCounted_tick hh _ e, State.tick_timeBase _ e⟩, rfl⟩
  · rw [State.lossExpiry_locked h, State.flywheelExpiry_locked h, ← State.untilOwn_locked h]
    exact ⟨⟨_, rfl, State.frameCounted_loseReference h hh _ e, State.loseReference_raises _ e, State.loseReference_timeBase _ e⟩,
      rfl⟩

/-- Settles O34: with no event of the time base's own before it, the pulse finds the time passed and no more. -/
theorem pulseCountsAtMostOneFrame : Obligations.PulseCountsAtMostOneFrame := by
  intro s dt e hh hdt
  rw [exec_refPulse hh, State.pulseAfter_within hdt]
  refine ⟨fun h => ⟨fun hc => ?lockedCounts, fun hc => ?lockedEarly⟩, fun h run hrun => ?flywheel⟩
  case lockedCounts =>
    rw [State.pulse_locked_counts (s := s.advance dt) h hc, ← h]
    exact ⟨_, rfl, State.frameCounted_frameEvent (.same rfl) hh e, State.frameEvent_timeBase _ e⟩
  case lockedEarly =>
    rw [State.pulse_locked_early (s := s.advance dt) h hc]
    rfl
  case flywheel =>
    obtain rfl : run = (s.advance dt).runLength := hrun.trans (s.advance dt).runLength_eq.symm
    refine ⟨fun hc => ?counts, fun hc ht => ?afterTick, fun hc ht => ?afterPulse⟩
    case counts =>
      have clocked := (State.reclocked_qualify (s := s.advance dt) h).of_advance.timer 0 false
      rw [State.pulse_flywheel_counts (s := s.advance dt) h hc]
      refine ⟨_, rfl, State.frameCounted_frameEvent clocked hh e, fun hr => ?_, fun hr => ⟨?_, ?_⟩⟩
      · rw [State.frameEvent_timeBase, State.qualify_runs hr, ← h]
        rfl
      · rw [State.frameEvent_timeBase, State.qualify_relocks hr]
        rfl
      · refine State.frameEvent_flags _ e _ ?_
        rw [State.qualify_relocks hr]
        exact EventSet.get_put_self s.flags .reference
    case afterTick =>
      rw [State.pulse_flywheel_afterTick (s := s.advance dt) h hc ht]
      refine ⟨_, rfl, ?_⟩
      rcases Nat.lt_or_ge (s.advance dt).runLength 4 with hr | hr
      · rw [State.qualify_runs hr]
        exact ⟨rfl, fun _ => ⟨h, rfl, rfl⟩, fun hn => absurd hr (Nat.not_lt.mpr hn)⟩
      · rw [State.qualify_relocks hr]
        exact ⟨rfl, fun hn => absurd hn (Nat.not_lt.mpr hr), fun _ => ⟨rfl, rfl, rfl⟩⟩
    case afterPulse =>
      rw [State.pulse_flywheel_afterPulse (s := s.advance dt) h hc ht]
      rfl

/-- Settles O35: the own event is made, and the rest of the time passes after it. -/
theorem latePulseFindsTheOwnEventMade : Obligations.LatePulseFindsTheOwnEventMade := by
  intro s dt e hh hlate
  refine ⟨s.nextOwn, fun h => ?_, fun h => ?_, s.sameEvent_raw, mem_allWork, ?_⟩
  · rw [exec_flywheelTick hh, State.nextOwn_flywheel h]
  · rw [exec_referenceLoss hh, State.nextOwn_locked h]
  · have held : s.nextOwn.held = false := (State.ownEvent_held _ _).trans hh
    rw [exec_refPulse hh, exec_refPulse held, State.pulseAfter_past hlate]

end Sys2Proof
end

section
/-! PROOFS. The timing engine: the durations of an item, the projection of a track, and its over/under status (R70 to R76). -/

namespace Sys2Proof.Machine

variable {s : State} {t : Track} {i : Slot} {x : Item} {next : Frame} {l : List Slot} {p q : Projected}
  {before rest : List Projected} {u : Int} {band hysteresis : Nat} {status : Status}

/-! ### Durations (R70 to R72) -/

theorem State.estimate_unread (h : x.fields.kind ≠ .read) : s.estimate x = none := by
  unfold State.estimate
  split
  · next hk => exact absurd hk h
  · rfl

theorem State.estimate_unnamed (h : x.fields.kind = .read) (hp : x.fields.presenter = none) :
    s.estimate x = some x.fields.planned := by
  rw [State.estimate, h, hp]

theorem State.estimate_named {n : Pos} (h : x.fields.kind = .read) (hp : x.fields.presenter = some n) :
    s.estimate x = some ((x.fields.words * (s.presenter n).rate + 128) / 256) := by
  rw [State.estimate, h, hp]
  rfl

theorem State.estimate_read (h : x.fields.kind = .read) : ∃ n, s.estimate x = some n := by
  rw [State.estimate, h]
  exact ⟨_, rfl⟩

theorem State.base_planned (h : x.fields.kind ≠ .read ∨ x.fields.timed = true) : s.base x = x.fields.planned := by
  unfold State.base
  split
  · rfl
  · next ht => rw [State.estimate_unread (h.resolve_right ht), Option.getD_none]

theorem State.base_estimate (h : x.fields.kind = .read) (ht : x.fields.timed = false) : some (s.base x) = s.estimate x := by
  obtain ⟨n, hn⟩ := State.estimate_read (s := s) h
  rw [State.base, if_neg (ht ▸ Bool.false_ne_true), hn, Option.getD_some]

theorem State.working_waiting (h : x.state = .ready ∨ x.state = .planned) : s.working x = some (s.base x) := by
  rcases h with h | h <;> rw [State.working, h]

theorem State.working_done (h : x.state = .done) : s.working x = x.actual := by
  rw [State.working, h]

theorem State.working_skipped (h : x.state = .skipped) : s.working x = none := by
  rw [State.working, h]

theorem State.working_onAir {start : Frame} (h : x.state = .onAir) (hs : x.start = some start) :
    s.working x = some (max (s.base x) (min 16777215 (frameDiff s.sfc start).toNat)) := by
  rw [State.working, h, State.elapsed, hs]
  rfl

/-! ### The projection (R73) -/

/-- A projected item stands at `next`, or at its hard-in with the gap shown (R73). -/
def State.LaidAt (s : State) (next : Frame) (p : Projected) : Prop :=
  p.working = (s.working (s.slot p.slot)).getD 0 ∧
    ((s.slot p.slot).fields.hardIn = none → p.front = next ∧ p.gap = none) ∧
    ∀ h, (s.slot p.slot).fields.hardIn = some h → p.front = h ∧ p.gap = some (frameDiff h next)

/-- The first item laid out stands at `next`, and the others from its end on. -/
theorem State.layOut_cons (s : State) (next : Frame) (i : Slot) (l : List Slot) :
    ∃ p, s.layOut next (i :: l) = p :: s.layOut (frameAdd p.front p.working) l ∧ p.slot = i ∧ s.LaidAt next p := by
  refine ⟨_, rfl, ?_⟩
  unfold State.LaidAt
  cases hi : (s.slot i).fields.hardIn <;> simp [hi]

theorem State.layOut_slots (s : State) (next : Frame) (l : List Slot) : (s.layOut next l).map Projected.slot = l := by
  induction l generalizing next with
  | nil => rfl
  | cons i l ih =>
    obtain ⟨p, hp, hi, -⟩ := s.layOut_cons next i l
    rw [hp, List.map_cons, hi, ih]

theorem State.layOut_head (h : s.layOut next l = p :: rest) :
    s.LaidAt next p ∧ ∃ m, rest = s.layOut (frameAdd p.front p.working) m := by
  cases l with
  | nil => cases h
  | cons i m =>
    obtain ⟨q, hq, -, laid⟩ := s.layOut_cons next i m
    obtain ⟨rfl, rfl⟩ := List.cons.inj (hq.symm.trans h)
    exact ⟨laid, m, rfl⟩

/-- Each item laid out stands where the one before it ends, or at its hard-in. -/
theorem State.layOut_chain (h : s.layOut next l = before ++ p :: q :: rest) : s.LaidAt (frameAdd p.front p.working) q := by
  induction before generalizing next l with
  | nil =>
    obtain ⟨-, m, hm⟩ := State.layOut_head h
    exact (State.layOut_head hm.symm).1
  | cons b before ih =>
    obtain ⟨-, m, hm⟩ := State.layOut_head h
    exact ih hm.symm

/-- The item on air, from its start (R73). -/
def State.airing (s : State) (o : Slot) : Projected :=
  ⟨o, (s.slot o).start.getD s.sfc, (s.working (s.slot o)).getD 0, none⟩

theorem State.projection_onAir {o : Slot} (h : (s.track t).onAir = some o) : s.projection t =
    s.airing o :: s.layOut (frameAdd (s.airing o).front (s.airing o).working) (s.candidates t) := by
  rw [State.projection, h]
  rfl

theorem State.projection_offAir (h : (s.track t).onAir = none) :
    s.projection t = s.layOut (frameAdd s.sfc (s.track t).takeDelay) (s.candidates t) := by
  rw [State.projection, h]

theorem State.projection_slots (s : State) (t : Track) :
    (s.projection t).map Projected.slot = (s.track t).onAir.toList ++ s.candidates t := by
  cases h : (s.track t).onAir with
  | none =>
    rw [State.projection_offAir h, State.layOut_slots]
    rfl
  | some o =>
    rw [State.projection_onAir h, List.map_cons, State.layOut_slots]
    rfl

theorem State.projection_head {o : Slot} {start : Frame} (h : (s.track t).onAir = some o) (hs : (s.slot o).start = some start) :
    (s.projection t).head? = some ⟨o, start, (s.working (s.slot o)).getD 0, none⟩ := by
  rw [State.projection_onAir h, State.airing, hs]
  rfl

theorem State.projection_chain (h : s.projection t = before ++ p :: q :: rest) : s.LaidAt (frameAdd p.front p.working) q := by
  cases ho : (s.track t).onAir with
  | none => exact State.layOut_chain ((State.projection_offAir ho).symm.trans h)
  | some o =>
    rw [State.projection_onAir ho] at h
    cases before with
    | nil =>
      obtain ⟨rfl, hl⟩ := List.cons.inj h
      exact (State.layOut_head hl).1
    | cons b before => exact State.layOut_chain (List.cons.inj h).2

/-! ### The projected end and the derived times (R74) -/

theorem State.projectedEnd_nil (h : s.projection t = []) : s.projectedEnd t = s.sfc := by
  rw [State.projectedEnd, h]
  rfl

theorem State.projectedEnd_last (h : s.projection t = before ++ [p]) : s.projectedEnd t = frameAdd p.front p.working := by
  rw [State.projectedEnd, h, List.getLast?_concat]

theorem State.overUnder_none (h : (s.track t).hardOut = none) : s.overUnder t = none := by
  rw [State.overUnder, h, Option.map_none]

theorem State.overUnder_some {h : Frame} (ho : (s.track t).hardOut = some h) :
    s.overUnder t = some (frameDiff (s.projectedEnd t) h) := by
  rw [State.overUnder, ho, Option.map_some]

/-- The place of an item in the projection of its track. -/
def State.placed (s : State) (i : Slot) : Option Projected :=
  (s.projection (s.slot i).track).find? (fun p => decide (p.slot = i))

theorem State.placed_mem (h : ((s.projection t).map Projected.slot).Nodup) (hp : p ∈ s.projection t)
    (ht : (s.slot p.slot).track = t) : s.placed p.slot = some p := by
  rw [State.placed, ht]
  cases hf : (s.projection t).find? (fun q => decide (q.slot = p.slot)) with
  | none => exact absurd (List.find?_eq_none.mp hf p hp) (by simp)
  | some q =>
    have hq : q.slot = p.slot := of_decide_eq_true (List.find?_some (p := fun r : Projected => decide (r.slot = p.slot)) hf)
    rw [List.inj_on_of_nodup_map h (List.mem_of_find?_eq_some hf) hp hq]

theorem State.placed_notMem (ht : (s.slot i).track = t) (h : i ∉ (s.projection t).map Projected.slot) : s.placed i = none := by
  rw [State.placed, ht, List.find?_eq_none]
  exact fun p hp he => h (List.mem_map.mpr ⟨p, hp, of_decide_eq_true he⟩)

theorem State.derived_front (s : State) (i : Slot) : (s.derived i).front = (s.placed i).map (·.front) := rfl

theorem State.derived_gap (s : State) (i : Slot) : (s.derived i).gap = (s.placed i).bind (·.gap) := rfl

theorem State.derived_back (s : State) (i : Slot) : (s.derived i).back =
    (s.placed i).bind (fun p => (s.overUnder (s.slot i).track).map (backTime p.front)) := rfl

/-! ### Over/under status (R76) -/

theorem nextStatus_over (h : u > band) : nextStatus status (some u) band hysteresis = .overTime := if_pos h

theorem nextStatus_under (h : u < -(band : Int)) : nextStatus status (some u) band hysteresis = .underTime :=
  (if_neg (by omega)).trans (if_pos h)

theorem nextStatus_within (hl : -(band : Int) ≤ u) (hu : u ≤ band) :
    (status = .none ∨ status = .onTime → nextStatus status (some u) band hysteresis = .onTime) ∧
    (status = .overTime → nextStatus status (some u) band hysteresis =
      if u ≤ (band : Int) - hysteresis then .onTime else .overTime) ∧
    (status = .underTime → nextStatus status (some u) band hysteresis =
      if -(band : Int) + hysteresis ≤ u then .onTime else .underTime) := by
  unfold nextStatus
  dsimp only
  rw [if_neg (not_lt.mpr hu), if_neg (not_lt.mpr hl)]
  refine ⟨?_, ?_, ?_⟩
  · rintro (rfl | rfl) <;> rfl
  · rintro rfl
    rfl
  · rintro rfl
    rfl

theorem State.moveStatus_same (h : s.statusOf t = status) : s.moveStatus t status = s := if_pos h

theorem State.moveStatus_changed (h : s.statusOf t ≠ status) :
    s.moveStatus t status = (s.setStatus t status).raise (timingEvent t) := if_neg h

theorem State.runWork_status (s : State) (t : Track) : s.runWork (.status t) =
    s.moveStatus t (nextStatus (s.statusOf t) (s.overUnder t) (s.track t).band (s.track t).hysteresis) := rfl

end Sys2Proof.Machine

namespace Sys2Proof

open Sys2Proof.Machine

/-- Settles O36: the table decides one status, row by row, and the track's status moves to it. -/
theorem overUnderStatusFollowsTheTable : Obligations.OverUnderStatusFollowsTheTable := by
  intro s t after hnone hsome
  have table : nextStatus (s.statusOf t) (s.overUnder t) (s.track t).band (s.track t).hysteresis = after := by
    cases ho : (s.track t).hardOut with
    | none =>
      rw [State.overUnder_none ho, hnone ho]
      rfl
    | some h =>
      obtain ⟨above, below, within⟩ := hsome _ (State.overUnder_some ho)
      rw [State.overUnder_some ho]
      generalize frameDiff (s.projectedEnd t) h = u at *
      rcases lt_or_ge ((s.track t).band : Int) u with hu | hu
      · rw [above hu, nextStatus_over hu]
      rcases lt_or_ge u (-((s.track t).band : Int)) with hl | hl
      · rw [below hl, nextStatus_under hl]
      obtain ⟨calm, late, early⟩ := within hl hu
      obtain ⟨calm', late', early'⟩ := nextStatus_within (hysteresis := (s.track t).hysteresis) (status := s.statusOf t) hl hu
      cases hs : s.statusOf t with
      | none => rw [← hs, calm' (.inl hs), calm (.inl hs)]
      | onTime => rw [← hs, calm' (.inr hs), calm (.inr hs)]
      | overTime => rw [← hs, late' hs, late hs]
      | underTime => rw [← hs, early' hs, early hs]
  rw [State.runWork_status, table]
  exact ⟨fun h => State.moveStatus_same h.symm, fun h => State.moveStatus_changed h.symm⟩

/-- Settles O37: each derived value by the case of its rule. -/
theorem durationsFollowTheRecord : Obligations.DurationsFollowTheRecord := by
  rintro s i x rfl
  refine ⟨State.estimate_unread, State.estimate_unnamed, fun p => State.estimate_named, fun h => congrArg some (State.base_planned h),
    State.base_estimate, State.working_waiting, State.working_done, State.working_skipped, fun start base h hs hb => ?_⟩
  rw [← Option.some.inj hb]
  exact State.working_onAir h hs

/-- Settles O38: the projection is its first item and a chain laid from it, and an item's times are read at its one place there. -/
theorem projectionLaysItemsEndToEnd : Obligations.ProjectionLaysItemsEndToEnd := by
  intro s t
  refine ⟨s.projection_slots t, fun o start => State.projection_head, fun p rest ho h => ?first,
    fun before p q rest => State.projection_chain, State.projectedEnd_nil, fun before p => State.projectedEnd_last,
    State.overUnder_none, fun h => State.overUnder_some, fun p hn hp ht => ?projected, fun i ht hi => ?apart⟩
  case first => exact (State.layOut_head ((State.projection_offAir ho).symm.trans h)).1
  case projected =>
    have placed := State.placed_mem hn hp ht
    rw [State.derived_front, State.derived_gap, State.derived_back, placed, ht]
    refine ⟨rfl, rfl, fun h => ?_, fun u h => ?_⟩
    · rw [h]
      rfl
    · rw [h]
      rfl
  case apart =>
    rw [State.derived_front, State.derived_gap, State.derived_back, State.placed_notMem ht hi]
    exact ⟨rfl, rfl, rfl⟩

end Sys2Proof
end

section
/-! PROOFS. The presenter requests at a free port: PRESENTER.CONFIG, SEED and READ (R87 to R89, R138, R155, R163). -/

namespace Sys2Proof.Machine

variable {s : State} {p : Pos} {n fields rate : Nat} {v : PresenterSettings}

theorem exec_presenterConfig (h : s.portFree) (n fields : Nat) (v : PresenterSettings) :
    exec (.presenterConfig n fields v) s = .next ((s.select 21).servePresenterConfig n fields v).buffered := exec_atPort rfl nofun h

theorem exec_presenterSeed (h : s.portFree) (n rate : Nat) :
    exec (.presenterSeed n rate) s = .next ((s.select 4).servePresenterSeed n rate).buffered := exec_atPort rfl nofun h

theorem exec_presenterRead (h : s.portFree) (n : Nat) :
    exec (.presenterRead n) s = .next ((s.select 2).servePresenterRead n).buffered := exec_atPort rfl nofun h

/-- Clamping as the nearest value of the range. -/
theorem clampTo_eq {lo hi : Nat} (h : lo ≤ hi) (v : Nat) : clampTo lo hi v = max lo (min hi v) := by
  unfold clampTo
  split
  · omega
  · split <;> omega

/-! ### PRESENTER.CONFIG (R87) -/

/-- The settings of a PRESENTER.CONFIG that are refused: an empty field set, or a bit that is not defined (R163). -/
theorem presenterSettings_refused_iff : (badFieldSet 14 fields || presenterFlagsBad v) = true ↔
    fields = 0 ∨ 16384 ≤ fields ∨ 4 ≤ v.flags := by
  simp [badFieldSet, presenterFlagsBad, or_assoc]

theorem State.servePresenterConfig_range (h : 8 ≤ n ∨ fields = 0 ∨ 16384 ≤ fields ∨ 4 ≤ v.flags) :
    s.servePresenterConfig n fields v = s.refuse .range := by
  unfold State.servePresenterConfig
  rcases Nat.lt_or_ge n 8 with hn | hn
  · have refused := presenterSettings_refused_iff.mpr (h.resolve_left (Nat.not_le.mpr hn))
    rw [idOf_of_lt hn, State.ranged_some, if_pos refused]
  · rw [idOf_of_le hn, State.ranged_none]

theorem State.servePresenterConfig_sets (h0 : 0 < fields) (h1 : fields < 16384) (hv : v.flags < 4) :
    s.servePresenterConfig p.val fields v =
      (s.configurePresenter p ((s.presenter p).configured fields v)).accept ((s.presenter p).clamps fields v)
        (.presenterConfig ((s.presenter p).configured fields v)) := by
  have defined : ¬(badFieldSet 14 fields || presenterFlagsBad v) = true := by
    rw [presenterSettings_refused_iff]
    omega
  rw [State.servePresenterConfig, idOf_val, State.ranged_some, if_neg defined]

/-- A setting of a PRESENTER.CONFIG stored at its limit (R87, R155). -/
theorem Presenter.clamps_eq (x : Presenter) (fields : Nat) (v : PresenterSettings) : x.clamps fields v =
    decide ((fields.testBit 2 = true ∧ (v.slowShift = 0 ∨ 7 < v.slowShift)) ∨
      (x.configured fields v).slowShift < (if fields.testBit 3 then v.fastShift else x.fastShift) ∨
      (fields.testBit 4 = true ∧ 16383 < v.fastBound) ∨ (fields.testBit 5 = true ∧ 16383 < v.haltBand) ∨
      (fields.testBit 6 = true ∧ (v.minWords = 0 ∨ 4095 < v.minWords)) ∨ (fields.testBit 7 = true ∧ 65535 < v.wrap) ∨
      (fields.testBit 8 = true ∧ 255 < v.standbyLit) ∨ (fields.testBit 9 = true ∧ 255 < v.standbyDark) ∨
      (fields.testBit 10 = true ∧ 255 < v.onAirLit) ∨ (fields.testBit 11 = true ∧ 255 < v.onAirDark) ∨
      (fields.testBit 12 = true ∧ 255 < v.wrapLit) ∨ (fields.testBit 13 = true ∧ 255 < v.wrapDark)) := by
  rw [Bool.eq_iff_iff]
  simp only [Presenter.clamps, outside, Bool.or_eq_true, Bool.and_eq_true, decide_eq_true_eq, Nat.not_lt_zero, Nat.lt_one_iff,
    false_or, or_assoc]
  rfl

/-- A PRESENTER.CONFIG carried out: the record, the mark of its light, and the answer (R87, R138). -/
theorem exec_presenterConfig_sets (hp : s.portFree) (h0 : 0 < fields) (h1 : fields < 16384) (hv : v.flags < 4) {x : Presenter}
    (hx : x = (s.presenter p).configured fields v) :
    exec (.presenterConfig p.val fields v) s =
      .next (((s.answeredWith 21 (okOr ((s.presenter p).clamps fields v)) (.presenterConfig x)).setPresenter p x).setLight p
        ((s.light p).marked (s.presenter p) x)) := by
  subst hx
  rw [exec_presenterConfig hp, State.servePresenterConfig_sets h0 h1 hv]
  rfl

/-! ### PRESENTER.SEED and PRESENTER.READ (R88, R89) -/

theorem State.servePresenterSeed_range (h : 8 ≤ n) : s.servePresenterSeed n rate = s.refuse .range := by
  rw [State.servePresenterSeed, idOf_of_le h, State.ranged_none]

theorem State.servePresenterSeed_sets (s : State) (p : Pos) (rate : Nat) : s.servePresenterSeed p.val rate =
    (s.setPresenter p { s.presenter p with rate := max 64 (min 16383 rate), outliers := 0 }).accept
      (decide (rate < 64 ∨ 16383 < rate)) (.seeded (max 64 (min 16383 rate)) 0) := by
  have limits : outside minRate maxRate rate = decide (rate < 64 ∨ 16383 < rate) := (Bool.decide_or _ _).symm
  have rounded : clampTo minRate maxRate rate = max 64 (min 16383 rate) := clampTo_eq (by decide) rate
  rw [State.servePresenterSeed, idOf_val, State.ranged_some, limits, rounded]

theorem State.servePresenterRead_range (h : 8 ≤ n) : s.servePresenterRead n = s.refuse .range := by
  rw [State.servePresenterRead, idOf_of_le h, State.ranged_none]

theorem State.servePresenterRead_answers (s : State) (p : Pos) : s.servePresenterRead p.val =
    s.accept false (.presenterRead (s.presenter p) ((100 * (s.presenter p).rate + 128) / 256)) := by
  rw [State.servePresenterRead, idOf_val, State.ranged_some]
  rfl

end Sys2Proof.Machine

namespace Sys2Proof

open Sys2Proof.Machine

/-- Settles O39: each request by the branch of its rule; the record is settled field by field. -/
theorem presenterRequestsSetAndRead : Obligations.PresenterRequestsSetAndRead := by
  intro s p fields v x hp
  refine ⟨?config, fun n h => ?configRefused, ?seed, ?read, fun n rate h => ⟨?seedRefused, ?readRefused⟩⟩
  case config =>
    intro h0 h1 hv enabled learn slow fast fastBound haltBand minWords wrap standbyLit standbyDark onAirLit onAirDark wrapLit
      wrapDark rate outliers last
    have configured : x = (s.presenter p).configured fields v := by
      obtain ⟨_, _, _, _, _, _, _, _, _, _, ⟨_, _⟩, ⟨_, _⟩, ⟨_, _⟩, _⟩ := x
      dsimp only at slow
      subst slow
      simp only [Presenter.configured, Presenter.slowAfter, Presenter.fastGiven, countAfter, pick, clampTo_zero,
        clampTo_eq (show 1 ≤ 7 by decide), clampTo_eq (show 1 ≤ 4095 by decide), Presenter.mk.injEq, Pattern.mk.injEq]
      exact ⟨enabled, rate, learn, trivial, fast, fastBound, haltBand, minWords, outliers, wrap, ⟨standbyLit, standbyDark⟩,
        ⟨onAirLit, onAirDark⟩, ⟨wrapLit, wrapDark⟩, last⟩
    rw [exec_presenterConfig_sets hp h0 h1 hv configured, Presenter.clamps_eq, ← configured]
    rfl
  case configRefused => rw [exec_presenterConfig hp, State.servePresenterConfig_range h, State.refuse_buffered]
  case seed =>
    rintro rate r rfl
    rw [exec_presenterSeed hp, State.servePresenterSeed_sets]
    rfl
  case read =>
    rw [exec_presenterRead hp, State.servePresenterRead_answers]
    rfl
  case seedRefused => rw [exec_presenterSeed hp, State.servePresenterSeed_range h, State.refuse_buffered]
  case readRefused => rw [exec_presenterRead hp, State.servePresenterRead_range h, State.refuse_buffered]

end Sys2Proof
end

section
/-! PROOFS. The presenter unit learns from a completion: the measurement, the conditions of a sample, and what the sample does to the
record (R81 to R86). -/

namespace Sys2Proof.Machine

variable {s : State} {p : Pos} {d : ReadDone} {x : Presenter} {r m : Nat} {kind : MeasureKind}

/-! ### The measurement and the sample (R81, R82) -/

theorem ReadDone.measure_prompter {e : Frame} (he : d.prompterEnd = some e)
    (h : 1 ≤ frameDiff e d.start ∧ frameDiff e d.start ≤ d.actual) : d.measure = (.prompter, (frameDiff e d.start).toNat) := by
  rw [ReadDone.measure, he]
  exact if_pos h

theorem ReadDone.measure_actual
    (h : ∀ e, d.prompterEnd = some e → ¬(1 ≤ frameDiff e d.start ∧ frameDiff e d.start ≤ d.actual)) :
    d.measure = (.actual, d.actual) := by
  unfold ReadDone.measure
  split
  · next e he => exact if_neg (h e he)
  · rfl

/-- The six conditions of a sample but the named position (R82). -/
theorem ReadDone.givesSample_iff : d.givesSample x = true ↔
    d.kind = .read ∧ x.enabled = true ∧ x.learn = true ∧ x.minWords ≤ d.words ∧ 1 ≤ d.measure.2 ∧
      (d.timed = true → d.measure.1 = .prompter) := by
  simp only [ReadDone.givesSample, Bool.and_eq_true, Bool.or_eq_true, Bool.not_eq_true', decide_eq_true_eq, and_assoc,
    ← Bool.not_eq_true, imp_iff_not_or]

/-! ### What a sample does to the rate (R83 to R85) -/

theorem sampleRate_eq (m w : Nat) : sampleRate m w = max 64 (min 16383 ((m * 256 + w / 2) / w)) :=
  clampTo_eq (show minRate ≤ maxRate by decide) _

theorem Presenter.isOutlier_iff {δ : Int} : x.isOutlier δ = true ↔ x.haltBand ≠ 0 ∧ x.haltBand < δ.natAbs := by
  simp [Presenter.isOutlier]

/-- The rate moved, in signed numbers: where the step exceeds the rate, both differences are clamped to the lowest rate. -/
theorem Presenter.moved_cast (x : Presenter) (δ : Int) : (x.moved δ : Int) =
    max 64 (min 16383 (if 0 < δ then (x.rate : Int) + stepOf δ.natAbs (x.shiftFor δ)
      else x.rate - stepOf δ.natAbs (x.shiftFor δ))) := by
  rw [Presenter.moved, clampTo_eq (show minRate ≤ maxRate by decide), minRate, maxRate]
  split <;> omega

theorem Presenter.learnt_within (h : ¬x.isOutlier ((r : Int) - x.rate) = true) :
    x.learnt r = (.learned, x.moved ((r : Int) - x.rate), 0, some (x.shiftFor ((r : Int) - x.rate))) := if_neg h

theorem Presenter.learnt_held (h : x.isOutlier ((r : Int) - x.rate) = true) (ho : x.outliers < 2) :
    x.learnt r = (.held, x.rate, x.outliers + 1, none) :=
  (if_pos h).trans (if_pos (Nat.succ_lt_succ ho))

theorem Presenter.learnt_reseed (h : x.isOutlier ((r : Int) - x.rate) = true) (ho : x.outliers = 2) :
    x.learnt r = (.reseed, r, 0, none) :=
  (if_pos h).trans (if_neg (by omega))

/-! ### A completion learnt from (R82 to R86) -/

theorem State.learnFrom_unnamed (h : d.presenter = none) : s.learnFrom d = s := by
  rw [State.learnFrom, h]

theorem State.learnFrom_noSample (hp : d.presenter = some p) (h : ¬d.givesSample (s.presenter p) = true) : s.learnFrom d = s := by
  rw [State.learnFrom, hp]
  exact if_neg h

theorem State.learnFrom_sample (hp : d.presenter = some p) (h : d.givesSample (s.presenter p) = true) : s.learnFrom d =
    if ((s.presenter p).learnt (sampleRate d.measure.2 d.words)).1 = .reseed
    then (s.setPresenter p ((s.presenter p).afterSample d)).raise .rateReseed
    else s.setPresenter p ((s.presenter p).afterSample d) := by
  rw [State.learnFrom, hp]
  exact if_pos h

/-- The record after a sample, from what it does to the rate (R84 to R86). -/
theorem Presenter.afterSample_eq (hm : d.measure = (kind, m)) (hr : sampleRate m d.words = r) {outcome : Learning}
    {rate outliers : Nat} {shift : Option Nat} (h : x.learnt r = (outcome, rate, outliers, shift)) :
    x.afterSample d = { x with
      rate := rate, outliers := outliers
      last := some ⟨d.item, d.track, kind, m, d.words, r, (r : Int) - x.rate, shift, outcome, rate⟩ } := by
  rw [Presenter.afterSample, hm, hr, h]

theorem State.takeReadDone_head {l : List ReadDone} (h : s.readsDone = d :: l) : s.takeReadDone = (s.setReadsDone l).learnFrom d := by
  rw [State.takeReadDone, h]

end Sys2Proof.Machine

namespace Sys2Proof

open Sys2Proof.Machine

/-- Settles O40: the measurement decides whether there is a sample, and the sample's difference what it does. -/
theorem completionLearnsFromItsSample : Obligations.CompletionLearnsFromItsSample := by
  intro s d rest kind m hh hd hm
  have measured : d.measure = (kind, m) := by
    obtain ⟨rfl, e, he, h1, h2, hm⟩ | ⟨rfl, rfl, h⟩ := hm
    · rw [ReadDone.measure_prompter he ⟨h1, h2⟩, ← hm, Int.toNat_natCast]
    · exact ReadDone.measure_actual h
  rw [exec_presenterCompletion_eq hh, State.takeReadDone_head hd]
  refine ⟨fun h => by rw [State.learnFrom_unnamed h], fun p hp => ⟨fun unfit => ?noSample, ?sample⟩⟩
  case noSample =>
    refine congrArg Host.Outcome.next (State.learnFrom_noSample hp ?_)
    rw [ReadDone.givesSample_iff, measured]
    rintro ⟨hk, he, hl, hw, hm, ht⟩
    rcases unfit with h | h | h | h | h | ⟨h, h'⟩
    · exact h hk
    · exact Bool.false_ne_true (h.symm.trans he)
    · exact Bool.false_ne_true (h.symm.trans hl)
    · exact absurd hw (Nat.not_le.mpr h)
    · exact Nat.one_le_iff_ne_zero.mp hm h
    · exact h' (ht h)
  case sample =>
    intro r δ hk he hl hw hm ht hr hδ
    have gives : d.givesSample ((s.setReadsDone rest).presenter p) = true := by
      rw [ReadDone.givesSample_iff, measured]
      exact ⟨hk, he, hl, hw, hm, ht⟩
    have rate : sampleRate m d.words = r := (sampleRate_eq m d.words).trans hr.symm
    rw [State.learnFrom_sample hp gives, measured, rate, State.setReadsDone_presenter]
    subst hδ
    refine ⟨fun inside k step after hk hs ha => ?learned, fun h0 hb ho => ?held, fun h0 hb ho => ?reseed⟩
    case learned =>
      have learnt := Presenter.learnt_within (x := s.presenter p) (r := r) (by rw [Presenter.isOutlier_iff]; omega)
      have shift : (s.presenter p).shiftFor ((r : Int) - (s.presenter p).rate) = k := hk.symm
      have moved : (s.presenter p).moved ((r : Int) - (s.presenter p).rate) = after := by
        rw [← Int.ofNat_inj, Presenter.moved_cast, shift, ha, hs, stepOf]
      rw [shift, moved] at learnt
      rw [Presenter.afterSample_eq measured rate learnt, learnt, if_neg nofun]
    case held =>
      have learnt := Presenter.learnt_held (Presenter.isOutlier_iff.mpr ⟨h0, hb⟩) ho
      rw [Presenter.afterSample_eq measured rate learnt, learnt, if_neg nofun]
    case reseed =>
      have learnt := Presenter.learnt_reseed (Presenter.isOutlier_iff.mpr ⟨h0, hb⟩) ho
      rw [Presenter.afterSample_eq measured rate learnt, learnt, if_pos rfl]

end Sys2Proof
end

section
/-! SUPPORT. What a move and a failure of one cue leave, in the terms of the statements, that no grant makes a cue PENDING, and the place
that a cue takes in the firing list and in a wait queue (R92, R93, R98, R120). -/

namespace Sys2Proof.Machine

variable {s t u v : State} {i : Slot} {k : Nat}

/-! ### One cue moved or FAILED (R92, R93) -/

/-- An operation that writes no record leaves every cue. -/
theorem State.cue?_of_slots (h : u.slots = s.slots) (j : Slot) (m : Nat) : u.cue? j m = s.cue? j m := by
  rw [State.cue?, State.slot, h]
  rfl

theorem State.movedCue_setCueState (s : State) (i : Slot) (k : Nat) (x : CueState) : s.MovedCue (s.setCueState i k x) i k x where
  cue := fun q hq => by rw [State.setCueState, State.modifyCue_cue?, if_pos ⟨rfl, rfl⟩, hq]; rfl
  otherCues := fun l hl => by rw [State.setCueState, State.modifyCue_cue?, if_neg fun h => hl h.2]
  item := by rw [State.setCueState_slot_self]
  others := fun j hj => State.setSlot_slot_ne _ _ _ hj

/-- A move speaks of the item records alone. -/
theorem State.MovedCue.of_slots {x : CueState} (h : s.MovedCue u i k x) (hs : t.slots = s.slots) (hu : v.slots = u.slots) :
    t.MovedCue v i k x := by
  have hi (j : Slot) : t.slot j = s.slot j := congrArg (fun b : Bank 512 Item => b.get j) hs
  have hj (j : Slot) : v.slot j = u.slot j := congrArg (fun b : Bank 512 Item => b.get j) hu
  refine ⟨fun q hq => ?_, fun l hl => ?_, ?_, fun j hne => ?_⟩
  · rw [State.cue?_of_slots hu]
    exact h.cue q (by rwa [State.cue?_of_slots hs] at hq)
  · rw [State.cue?_of_slots hu, State.cue?_of_slots hs]
    exact h.otherCues l hl
  · rw [hi, hj]
    exact h.item
  · rw [hi, hj]
    exact h.others j hne

/-- Of two moves of one cue the second stands. -/
theorem State.MovedCue.trans {x y : CueState} (a : s.MovedCue t i k x) (b : t.MovedCue u i k y) : s.MovedCue u i k y where
  cue := fun q hq => by rw [b.cue _ (a.cue q hq)]
  otherCues := fun l hl => (b.otherCues l hl).trans (a.otherCues l hl)
  item := by rw [b.item, a.item]
  others := fun j hj => (b.others j hj).trans (a.others j hj)

theorem State.failCue_cue? (s : State) (i : Slot) (k : Nat) (cause : FailCause) (j : Slot) (m : Nat) :
    (s.failCue i k cause).cue? j m =
      if j = i ∧ m = k then (s.cue? i k).map (fun q => { q with state := .failed, failCause := some cause }) else s.cue? j m := by
  rw [← State.modifyCue_cue?]
  by_cases hj : j = i
  · subst hj
    rw [State.failCue, State.cue?, State.raise_slot, State.setSlot_slot_self]
    rfl
  · rw [State.failCue, State.cue?, State.raise_slot, State.setSlot_slot_ne _ _ _ hj]
    rfl

theorem State.failedCue_failCue (s : State) (i : Slot) (k : Nat) (cause : FailCause) :
    s.FailedCue (s.failCue i k cause) i k cause where
  cue := fun q hq => by rw [State.failCue_cue?, if_pos ⟨rfl, rfl⟩, hq]; rfl
  otherCues := fun l hl => by rw [State.failCue_cue?, if_neg fun h => hl h.2]
  item := by
    rw [State.failCue, State.raise_slot, State.setSlot_slot_self, State.modifyCue, State.setSlot_slot_self]
  others := fun j hj => by
    rw [State.failCue, State.raise_slot, State.setSlot_slot_ne _ _ _ hj, State.modifyCue, State.setSlot_slot_ne _ _ _ hj]
  rest := rfl

/-! ### No cue becomes PENDING -/

/-- Every cue that stands PENDING after stood as it does before. -/
def State.NonePended (s u : State) : Prop := ∀ j m q, u.cue? j m = some q → q.state = .pending → s.cue? j m = some q

theorem State.NonePended.of_slots (h : u.slots = s.slots) : s.NonePended u := fun j m q hq _ => by
  rwa [State.cue?_of_slots h] at hq

theorem State.NonePended.trans (a : s.NonePended t) (b : t.NonePended u) : s.NonePended u :=
  fun j m q hq hp => a j m q (b j m q hq hp) hp

theorem State.NonePended.foldl {α : Type} {f : State → α → State} (h : ∀ (s : State) x, s.NonePended (f s x)) (l : List α)
    (s : State) : s.NonePended (l.foldl f s) := by
  induction l generalizing s with
  | nil => exact .of_slots rfl
  | cons x l ih => exact (h s x).trans (ih _)

/-- One cue changed, to another state than PENDING. -/
theorem State.NonePended.of_cue {f : Cue → Cue} (hf : ∀ q, (f q).state ≠ .pending)
    (h : ∀ j m, u.cue? j m = if j = i ∧ m = k then (s.cue? i k).map f else s.cue? j m) : s.NonePended u := by
  intro j m q hq hp
  rw [h] at hq
  split at hq
  · obtain ⟨z, -, rfl⟩ := Option.map_eq_some_iff.mp hq
    exact absurd hp (hf z)
  · exact hq

theorem State.nonePended_modifyCue {f : Cue → Cue} (hf : ∀ q, (f q).state ≠ .pending) (s : State) (i : Slot) (k : Nat) :
    s.NonePended (s.modifyCue i k f) := .of_cue hf (s.modifyCue_cue? i k f)

theorem State.nonePended_setCueState {x : CueState} (hx : x ≠ .pending) (s : State) (i : Slot) (k : Nat) :
    s.NonePended (s.setCueState i k x) := State.nonePended_modifyCue (fun _ => hx) s i k

theorem State.nonePended_failCue (s : State) (i : Slot) (k : Nat) (cause : FailCause) : s.NonePended (s.failCue i k cause) :=
  .of_cue (fun _ => by nofun) (s.failCue_cue? i k cause)

theorem State.nonePended_grantChain (c : Chan) (n : Nat) (s : State) : s.NonePended (State.grantChain c n s) := by
  induction n generalizing s with
  | zero => exact .of_slots rfl
  | succ n ih =>
    rw [State.grantChain]
    split
    · split
      · exact .of_slots rfl
      · next q rest _ =>
        have sent : s.NonePended (s.send c q rest) := (State.nonePended_setCueState (x := .sent) nofun s _ _).trans (.of_slots rfl)
        dsimp only
        split
        · have ended : (s.send c q rest).NonePended (((s.send c q rest).emptySlot c .done).rest c q.guard) :=
            .of_slots (by rw [State.rest_slots, State.emptySlot_slots])
          exact (sent.trans ended).trans (ih _)
        · exact sent
    · exact .of_slots rfl

/-! ### The places of a cue (R98, R120) -/

/-- Where a cue joins the firing list: behind entries it does not precede, ahead of the first it does (R98). -/
theorem insertFiring_split (e : Firing) (l : List Firing) : ∃ before after, l = before ++ after ∧
    insertFiring e l = before ++ e :: after ∧ (∀ y ∈ before, e.before y = false) ∧ ∀ y, after.head? = some y → e.before y = true := by
  induction l with
  | nil => exact ⟨[], [], rfl, rfl, nofun, nofun⟩
  | cons x l ih =>
    rw [insertFiring]
    by_cases h : e.before x = true
    · rw [if_pos h]
      exact ⟨[], x :: l, rfl, rfl, nofun, fun y hy => Option.some.inj hy ▸ h⟩
    · obtain ⟨before, after, hl, hi, hb, ha⟩ := ih
      rw [if_neg h, hi, hl]
      exact ⟨x :: before, after, rfl, rfl, List.forall_mem_cons.mpr ⟨Bool.eq_false_of_not_eq_true h, hb⟩, ha⟩

/-- Where a cue joins a wait queue: behind cues no later than it, ahead of the first later one (R120). -/
theorem enqueue_split (q : Queued) (l : List Queued) : ∃ before after, l = before ++ after ∧ enqueue q l = before ++ q :: after ∧
    (∀ z ∈ before, frameDiff z.fire q.fire ≤ 0) ∧ ∀ z, after.head? = some z → 0 < frameDiff z.fire q.fire := by
  induction l with
  | nil => exact ⟨[], [], rfl, rfl, nofun, nofun⟩
  | cons x l ih =>
    rw [enqueue]
    by_cases h : frameDiff x.fire q.fire > 0
    · rw [if_pos h]
      exact ⟨[], x :: l, rfl, rfl, nofun, fun y hy => Option.some.inj hy ▸ h⟩
    · obtain ⟨before, after, hl, hi, hb, ha⟩ := ih
      rw [if_neg h, hi, hl]
      exact ⟨x :: before, after, rfl, rfl, List.forall_mem_cons.mpr ⟨Int.not_lt.mp h, hb⟩, ha⟩

end Sys2Proof.Machine
end

section
/-! PROOFS. One cue of an arming: left, FAILED UNROUTED, or ARMED and in the firing list (R93 to R95, R98). -/

namespace Sys2Proof.Machine

variable {s : State} {i : Slot} {k : Nat} {ph : Phase} {base : Frame} {q : Cue} {r : Resolved}

theorem Cue.arms_iff {q : Cue} {ph : Phase} : q.arms ph = true ↔ q.spec.phase = ph ∧ q.state = .pending := by
  rw [Cue.arms, Bool.and_eq_true, decide_eq_true_eq, decide_eq_true_eq]

/-- A cue that is not of the phase, or not PENDING, is left (R94). -/
theorem State.armCue_left (hq : s.cue? i k = some q) (h : q.arms ph ≠ true) : State.armCue ph base i s k = s := by
  unfold State.armCue
  rw [hq]
  exact if_neg h

/-- A cue that no route serves is FAILED UNROUTED (R94). -/
theorem State.armCue_unrouted (hq : s.cue? i k = some q) (h : q.arms ph = true)
    (hr : s.resolve q.spec.target q.spec.action (s.slot i).track = none) :
    State.armCue ph base i s k = s.failCue i k .unrouted := by
  unfold State.armCue
  rw [hq]
  dsimp only
  rw [if_pos h, hr]

/-- A cue that a route serves is ARMED with its copy and fire frame, and joins the firing list (R94, R95, R98). -/
theorem State.armCue_routed (hq : s.cue? i k = some q) (h : q.arms ph = true)
    (hr : s.resolve q.spec.target q.spec.action (s.slot i).track = some r) {armed : Cue}
    (ha : armed = q.arm r (nominalFire q.spec base s.sfc r.delivery.preroll) s.sfc) :
    State.armCue ph base i s k =
      (s.modifyCue i k (fun _ => armed)).setFiring (insertFiring ⟨armed.fire.getD s.sfc, i, k⟩ s.firing) := by
  unfold State.armCue
  rw [hq, ha]
  dsimp only
  rw [if_pos h, hr]

theorem Cue.arm_state (q : Cue) (r : Resolved) (nominal now : Frame) : (q.arm r nominal now).state = .armed := by
  unfold Cue.arm
  split <;> rfl

theorem Cue.arm_fire (q : Cue) (r : Resolved) (nominal now : Frame) :
    (q.arm r nominal now).fire = some (if frameDiff nominal now < 0 then now else nominal) := by
  unfold Cue.arm
  split <;> rfl

/-- The three things one cue of an arming can come to (R94). -/
theorem State.armCue_cases (ph : Phase) (base : Frame) (i : Slot) (s : State) (k : Nat) :
    State.armCue ph base i s k = s ∧ (∀ q, s.cue? i k = some q → q.arms ph ≠ true) ∨
      State.armCue ph base i s k = s.failCue i k .unrouted ∨
      ∃ armed e, armed.state = .armed ∧
        State.armCue ph base i s k = (s.modifyCue i k (fun _ => armed)).setFiring (insertFiring e s.firing) := by
  cases hq : s.cue? i k with
  | none => exact .inl ⟨by rw [State.armCue, hq], fun _ h => by cases h⟩
  | some q =>
    by_cases ha : q.arms ph = true
    · cases hr : s.resolve q.spec.target q.spec.action (s.slot i).track with
      | none => exact .inr (.inl (State.armCue_unrouted hq ha hr))
      | some r =>
        have armed := State.armCue_routed (base := base) hq ha hr rfl
        exact .inr (.inr ⟨_, _, q.arm_state r _ _, armed⟩)
    · exact .inl ⟨State.armCue_left hq ha, fun p hp => Option.some.inj hp ▸ ha⟩

theorem State.nonePended_armCue (ph : Phase) (base : Frame) (i : Slot) (s : State) (k : Nat) :
    s.NonePended (State.armCue ph base i s k) := by
  rcases State.armCue_cases ph base i s k with ⟨h, -⟩ | h | ⟨armed, e, ha, h⟩
  · rw [h]; exact .of_slots rfl
  · rw [h]; exact s.nonePended_failCue i k .unrouted
  · rw [h]; exact (State.nonePended_modifyCue (fun _ => by rw [ha]; nofun) s i k).trans (.of_slots rfl)

/-- No cue that has come to its turn in an arming is left to be armed (R94). -/
theorem State.armCue_not_arms (hq : (State.armCue ph base i s k).cue? i k = some q) : q.arms ph ≠ true := by
  rw [Ne, Cue.arms_iff]
  rintro ⟨hph, hp⟩
  have before := s.nonePended_armCue ph base i k i k q hq hp
  rcases State.armCue_cases ph base i s k with ⟨-, h⟩ | h | ⟨armed, e, ha, h⟩
  · exact h q before (Cue.arms_iff.mpr ⟨hph, hp⟩)
  · rw [h, (s.failedCue_failCue i k .unrouted).cue q before] at hq
    rw [← Option.some.inj hq] at hp
    cases hp
  · rw [h, State.cue?_of_slots (State.setFiring_slots _ _), State.modifyCue_cue?, if_pos ⟨rfl, rfl⟩, before] at hq
    rw [← Option.some.inj hq, ha] at hp
    cases hp

end Sys2Proof.Machine

namespace Sys2Proof

open Sys2Proof.Machine

/-- Settles O41: the route table decides between a failure and an arming, and the firing list gives the armed cue its place. -/
theorem armedCuesTakeTheirFireFrame : Obligations.ArmedCuesTakeTheirFireFrame := by
  intro s ph base i k q hq
  refine ⟨fun h => State.armCue_left hq ?other, fun hph hp => ?arms⟩
  case other =>
    rw [Ne, Cue.arms_iff]
    rintro ⟨hph, hp⟩
    exact h.elim (· hph) (· hp)
  case arms =>
    have arms : q.arms ph = true := Cue.arms_iff.mpr ⟨hph, hp⟩
    refine ⟨fun hr => ?unrouted, fun r nominal armed hr hready hstart hending harmed => ?routed⟩
    case unrouted =>
      rw [State.armCue_unrouted hq arms hr]
      exact s.failedCue_failCue i k .unrouted
    case routed =>
      have hn : nominalFire q.spec base s.sfc r.delivery.preroll = nominal := by
        rw [nominalFire, hph]
        cases ph with
        | ready => exact (hready rfl).symm
        | start => exact (hstart rfl).symm
        | ending => exact (hending rfl).symm
      have ha : armed = q.arm r (nominalFire q.spec base s.sfc r.delivery.preroll) s.sfc := by rw [hn]; exact harmed
      obtain ⟨f, hf⟩ : ∃ f, armed.fire = some f := ⟨_, by rw [ha, Cue.arm_fire]⟩
      obtain ⟨before, after, hl, hi, hb, hh⟩ := insertFiring_split ⟨f, i, k⟩ s.firing
      have joined : State.armCue ph base i s k = (s.modifyCue i k (fun _ => armed)).setFiring (before ++ ⟨f, i, k⟩ :: after) := by
        rw [State.armCue_routed hq arms hr ha, hf, ← hi]
        rfl
      refine ⟨_, before, after, ⟨f, i, k⟩, joined, ?_, fun l hne => ?_, fun j hj => ?_, ?_, rfl, hf, rfl, rfl, hl, rfl, hb, hh⟩
      · rw [State.cue?_of_slots (State.setFiring_slots _ _), State.modifyCue_cue?, if_pos ⟨rfl, rfl⟩, hq]
        rfl
      · rw [State.cue?_of_slots (State.setFiring_slots _ _), State.modifyCue_cue?, if_neg fun h => hne h.2]
      · exact State.setSlot_slot_ne _ _ _ hj
      · rw [State.setFiring_slot, State.modifyCue, State.setSlot_slot_self]

end Sys2Proof
end

section
/-! SUPPORT. Offers: the checks of the channel, the cue FAILED, queued or sent, and what a list of offers leaves (R98, R99, R118 to R121,
R125). -/

namespace Sys2Proof.Machine

variable {s u v w : State} {c : Chan} {e : Firing} {q : Cue} {r : Resolved}

/-! ### The checks of an offer (R118, R119) -/

/-- The actions that a kind allows, as R118 lists them. -/
def ChannelKind.actions : ChannelKind → List Action
  | .none => []
  | .clip => [.load, .play, .stop]
  | .gfx => [.load, .in_, .out]
  | .audio => [.load, .play, .stop]
  | .aux => [.pulse]

theorem ChannelKind.allows_eq (k : ChannelKind) (a : Action) : k.allows a = decide (a ∈ k.actions) := by
  cases k <;> cases a <;> rfl

section
variable {x : Channel} {a : Action}

theorem Channel.refuses_offline (h : x.kind = .none) : x.refuses a = some .offline := if_pos h

theorem Channel.refuses_kind (h : x.kind ≠ .none) (ha : a ∉ x.kind.actions) : x.refuses a = some .kind := by
  rw [Channel.refuses, if_neg h, ChannelKind.allows_eq, if_pos (by rw [decide_eq_false ha]; rfl)]

theorem Channel.refuses_fault (h : x.kind ≠ .none) (ha : x.kind.allows a = true) (hf : x.state = .faulted ∧ x.faultMode = .latch) :
    x.refuses a = some .channelFault := by
  rw [Channel.refuses, if_neg h, ha, if_neg nofun, if_pos hf]

theorem Channel.refuses_full (h : x.kind ≠ .none) (ha : x.kind.allows a = true) (hf : ¬(x.state = .faulted ∧ x.faultMode = .latch))
    (hq : 8 ≤ x.queue.length) : x.refuses a = some .queueFull := by
  rw [Channel.refuses, if_neg h, ha, if_neg nofun, if_neg hf]
  exact if_pos hq

theorem Channel.refuses_none (h : x.kind ≠ .none) (ha : x.kind.allows a = true) (hf : ¬(x.state = .faulted ∧ x.faultMode = .latch))
    (hq : x.queue.length < 8) : x.refuses a = none := by
  rw [Channel.refuses, if_neg h, ha, if_neg nofun, if_neg hf]
  exact if_neg (Nat.not_le.mpr hq)

end

/-! ### One offer (R98, R99) -/

/-- The state once a cue has left the firing list. -/
def State.unlisted (s : State) (e : Firing) : State := s.setFiring (removeFiring e.slot e.index s.firing)

/-- The state once a cue is queued at its place in the wait queue of a channel (R120). -/
def State.queueAt (s : State) (c : Chan) (y : Queued) : State :=
  (s.setCueState y.cue.slot y.cue.index .queued).setChannel c { s.channel c with queue := enqueue y (s.channel c).queue }

theorem State.offer_refused (hq : s.cue? e.slot e.index = some q) (hr : q.resolved = some r) {cause : FailCause}
    (h : (s.channel r.delivery.channel).refuses q.spec.action = some cause) :
    s.offer e = (s.unlisted e).failCue e.slot e.index cause := by
  unfold State.offer
  rw [hq]
  dsimp only
  rw [hr]
  dsimp only
  rw [h]
  rfl

theorem State.offer_accepted (hq : s.cue? e.slot e.index = some q) (hr : q.resolved = some r)
    (h : (s.channel r.delivery.channel).refuses q.spec.action = none) :
    s.offer e = ((s.unlisted e).queueAt r.delivery.channel
      (queuedOf e.slot e.index (s.slot e.slot) q r.delivery e.fire)).grant r.delivery.channel := by
  unfold State.offer
  rw [hq]
  dsimp only
  rw [hr]
  dsimp only
  rw [h]
  rfl

/-- The three things an offer can come to. -/
theorem State.offer_cases (s : State) (e : Firing) :
    s.offer e = s.unlisted e ∨ (∃ cause, s.offer e = (s.unlisted e).failCue e.slot e.index cause) ∨
      ∃ c y, s.offer e = ((s.unlisted e).queueAt c y).grant c := by
  cases hq : s.cue? e.slot e.index with
  | none => exact .inl (by rw [State.offer, hq]; rfl)
  | some q =>
    cases hr : q.resolved with
    | none =>
      left
      unfold State.offer
      rw [hq]
      dsimp only
      rw [hr]
      rfl
    | some r =>
      cases h : (s.channel r.delivery.channel).refuses q.spec.action with
      | some cause => exact .inr (.inl ⟨cause, State.offer_refused hq hr h⟩)
      | none => exact .inr (.inr ⟨_, _, State.offer_accepted hq hr h⟩)

/-- An offer takes its cue out of the firing list, and no other (R98). -/
theorem State.offer_firing (s : State) (e : Firing) : (s.offer e).firing = removeFiring e.slot e.index s.firing := by
  rcases s.offer_cases e with h | ⟨cause, h⟩ | ⟨c, y, h⟩
  · rw [h]; rfl
  · rw [h]; rfl
  · rw [h, (State.reach_grant _ c).firing]; rfl

theorem State.nonePended_offer (s : State) (e : Firing) : s.NonePended (s.offer e) := by
  have listed : s.NonePended (s.unlisted e) := .of_slots rfl
  rcases s.offer_cases e with h | ⟨cause, h⟩ | ⟨c, y, h⟩
  · rw [h]; exact listed
  · rw [h]; exact listed.trans (State.nonePended_failCue _ _ _ cause)
  · rw [h]
    have queued : (s.unlisted e).NonePended ((s.unlisted e).queueAt c y) :=
      (State.nonePended_setCueState (x := .queued) nofun _ y.cue.slot y.cue.index).trans (.of_slots rfl)
    exact (listed.trans queued).trans (State.nonePended_grantChain c _ _)

/-! ### Several offers, one after another (R98) -/

theorem State.offered_foldl (l : List Firing) (s : State) : s.Offered l (l.foldl State.offer s) := by
  induction l generalizing s with
  | nil => exact .nil s
  | cons e l ih => exact .cons (ih _)

/-- What is in the firing list after offers was in it before, and was not offered. -/
theorem State.mem_firing_offers {l : List Firing} (h : e ∈ (l.foldl State.offer s).firing) : e ∈ s.firing ∧ e ∉ l := by
  induction l generalizing s with
  | nil => exact ⟨h, nofun⟩
  | cons x l ih =>
    obtain ⟨hx, hl⟩ := ih h
    rw [State.offer_firing] at hx
    obtain ⟨hm, hne⟩ := List.mem_filter.mp hx
    refine ⟨hm, fun he => ?_⟩
    rcases List.mem_cons.mp he with rfl | he
    · simp at hne
    · exact hl he

/-! ### A grant to an idle channel (R121, R125) -/

theorem Queued.doneAtSend_iff {y : Queued} : y.doneAtSend = true ↔ ¬y.runs := by
  rw [Queued.runs, Queued.doneAtSend, not_or, not_not, Bool.and_eq_true, decide_eq_true_eq, Bool.or_eq_true, decide_eq_true_eq,
    decide_eq_true_eq]
  cases y.mode <;> simp

theorem State.emptySlot_command {k : Command} (h : (s.channel c).command = some k) (o : CueOutcome) :
    s.emptySlot c o = (s.setChannel c { s.channel c with command := none }).setCuesDone (s.cuesDone ++ [⟨k.cue, o⟩]) := by
  rw [State.emptySlot, h]
  rfl

/-- Of two writes of one channel's record the second stands. -/
theorem State.setChannel_setChannel (s : State) (c : Chan) (x y : Channel) :
    (s.setChannel c x).setChannel c y = s.setChannel c y := by
  simp only [State.setChannel, Bank.set_set]

/-- The slot emptied and the channel at rest are the end of the command in it (R125). -/
theorem State.emptySlot_rest {k : Command} (h : (s.channel c).command = some k) (o : CueOutcome) :
    (s.emptySlot c o).rest c k.guard = s.commandEnded c k o := by
  have once (x y : Channel) (l : List CueDone) :
      ((s.setChannel c x).setCuesDone l).setChannel c y = (s.setChannel c y).setCuesDone l :=
    congrArg (State.setCuesDone · l) (s.setChannel_setChannel c x y)
  rw [State.emptySlot_command h, State.rest, State.commandEnded, State.setCuesDone_channel, State.setChannel_channel_self]
  by_cases hg : k.guard = 0
  · simp only [if_pos hg, once]
  · simp only [if_neg hg, once]
    rfl

/-- The head of the queue of a READY channel is sent, is done at its send, and the arbiter acts again (R121, R125). -/
theorem State.grant_done {y : Queued} {rest : List Queued} (hr : (s.channel c).state = .ready) (hq : (s.channel c).queue = y :: rest)
    (h : ¬y.runs) :
    s.grant c = ((s.send c y rest).commandEnded c (y.command ((s.channel c).tag + 1) s.sfc) .done).grant c := by
  have slot : ((s.send c y rest).channel c).command = some (y.command ((s.channel c).tag + 1) s.sfc) := by
    rw [State.send_channel_self]
  have ended := State.emptySlot_rest slot .done
  have left : (((s.send c y rest).commandEnded c (y.command ((s.channel c).tag + 1) s.sfc) .done).channel c).queue = rest := by
    rw [State.commandEnded, State.setCuesDone_channel, State.setChannel_channel_self, State.send_channel_self]
  rw [State.grant, hq, List.length_cons, State.grantChain, if_pos hr, hq]
  dsimp only
  rw [if_pos (Queued.doneAtSend_iff.mpr h), State.grant, left, ← ended]
  rfl

theorem State.sentFrom_send (s : State) (c : Chan) (y : Queued) (rest : List Queued) : s.SentFrom (s.send c y rest) c y rest where
  cue := (s.movedCue_setCueState _ _ .sent).of_slots rfl rfl
  channel := State.send_channel_self s c y rest
  otherChannels := (State.onChannel_send s c y rest).others
  link := s.send_tx_self c y rest
  otherLinks := fun _ h => s.send_tx_ne c y rest h
  rest := rfl

/-- A cue queued in an empty queue and sent from it goes from its place in the item to SENT (R120, R121). -/
theorem State.SentFrom.of_queueAt {y : Queued} {rest : List Queued} (h : (w.queueAt c y).SentFrom u c y rest) :
    w.SentFrom u c y rest where
  cue := ((w.movedCue_setCueState _ _ .queued).of_slots (v := w.queueAt c y) rfl rfl).trans h.cue
  channel := by
    rw [h.channel, State.queueAt, State.setChannel_channel_self]
    rfl
  otherChannels := fun d hd => by
    rw [h.otherChannels d hd, State.queueAt, State.setChannel_channel_ne _ _ _ hd]
    rfl
  link := by
    rw [h.link, State.queueAt, State.setChannel_channel_self, State.setChannel_tx, State.setCueState_tx]
  otherLinks := fun k hk => by
    rw [h.otherLinks k hk, State.queueAt, State.setChannel_tx, State.setCueState_tx]
  rest := by
    rw [h.rest]
    rfl

end Sys2Proof.Machine
end

section
/-! PROOFS. A phase armed and the cues it reaches offered, cues abandoned, and the channel's decision on an offer (R94, R98 to R101, R118
to R121). -/

namespace Sys2Proof.Machine

variable {s u : State} {i : Slot} {k : Nat} {q : Cue} {ph : Phase} {base : Frame}

/-! ### A phase armed (R94, R98) -/

theorem State.cuesArmed_foldl (ph : Phase) (base : Frame) (i : Slot) (l : List Nat) (s : State) :
    State.CuesArmed ph base i s l (l.foldl (State.armCue ph base i) s) := by
  induction l generalizing s with
  | nil => exact .nil s
  | cons k l ih => exact .cons (ih _)

/-- Of the cues that have come to their turn none is left to be armed (R94). -/
theorem State.foldl_armCue_not_arms {l : List Nat} (hk : k ∈ l) (hq : (l.foldl (State.armCue ph base i) s).cue? i k = some q) :
    q.arms ph ≠ true := by
  induction l generalizing s with
  | nil => cases hk
  | cons n l ih =>
    rcases List.mem_cons.mp hk with rfl | hk
    · intro ha
      have rest := State.NonePended.foldl (State.nonePended_armCue ph base i) l (State.armCue ph base i s k)
      exact State.armCue_not_arms (rest i k q hq (Cue.arms_iff.mp ha).2) ha
    · exact ih hk hq

theorem State.reached_congr (h : u.sfc = s.sfc) (a : Frame) : u.reached a = s.reached a := by
  rw [State.reached, h]
  rfl

/-- The arming of a phase: the cues armed one after another, and then those reached offered (R94, R98). -/
theorem State.armPhase_eq (s : State) (ph : Phase) (base : Frame) (i : Slot) :
    ∃ v, State.CuesArmed ph base i s (List.range (s.slot i).cues.length) v ∧ v.sfc = s.sfc ∧
      (∀ k q, v.cue? i k = some q → q.arms ph ≠ true) ∧
      s.armPhase ph base i = (v.firing.filter (fun e => decide (e ∉ s.firing) && s.reached e.fire)).foldl State.offer v := by
  have level := State.CueLevel.foldl (State.cueLevel_armCue ph base i) (List.range (s.slot i).cues.length) s
  refine ⟨_, State.cuesArmed_foldl ph base i _ s, level.aside.sfc, fun k q hq => ?_, ?_⟩
  · refine State.foldl_armCue_not_arms (List.mem_range.mpr ?_) hq
    have len := congrArg List.length (level.items i).specs
    rw [List.length_map, List.length_map] at len
    rw [← len]
    exact (List.getElem?_eq_some_iff.mp hq).choose
  · unfold State.armPhase
    dsimp only
    rw [State.reachedNew]
    congr 1
    refine List.filter_congr fun e _ => ?_
    rw [State.reached_congr level.aside.sfc, decide_not, List.contains_eq_mem]

/-! ### One cue abandoned (R100) -/

theorem State.abandonCue_armed (hq : s.cue? i k = some q) (h : q.state = .armed) :
    State.abandonCue i s k = (s.setCueState i k .abandoned).setFiring (removeFiring i k s.firing) := by
  unfold State.abandonCue
  rw [hq]
  dsimp only
  rw [h]

/-- A cue queued with a channel that is not READY leaves its queue, and the arbiter does nothing (R100, R121). -/
theorem State.abandonCue_queued {r : Resolved} (hq : s.cue? i k = some q) (h : q.state = .queued) (hr : q.resolved = some r)
    (hc : (s.channel r.delivery.channel).state ≠ .ready) :
    State.abandonCue i s k = (s.setCueState i k .abandoned).setChannel r.delivery.channel { s.channel r.delivery.channel with
      queue := (s.channel r.delivery.channel).queue.filter (fun x => !(decide (x.cue.slot = i) && decide (x.cue.index = k))) } := by
  unfold State.abandonCue
  rw [hq]
  dsimp only
  rw [h]
  dsimp only
  rw [hr]
  refine State.grant_idle fun hready => absurd ?_ hc
  rwa [State.setChannel_channel_self] at hready

end Sys2Proof.Machine

namespace Sys2Proof

open Sys2Proof.Machine

/-- Settles O42: the cues that come to their turn are armed or FAILED, no offer makes one PENDING, and an offered cue is out of the list. -/
theorem armingOffersAndAbandonmentWithdraws : Obligations.ArmingOffersAndAbandonmentWithdraws := by
  refine ⟨fun s ph base i => ?arming, fun s i k q hq => ⟨fun ha => ?armed, fun r hb hr hc => ?queued, fun ha hb => ?other⟩,
    fun s i which hs => State.abandoned_abandon hs i which⟩
  case arming =>
    obtain ⟨v, hv, -, armed, harm⟩ := s.armPhase_eq ph base i
    rw [harm]
    refine ⟨fun q hq hph hp => ?_, fun e he => ?_, v, hv, State.offered_foldl _ v⟩
    · obtain ⟨k, hk⟩ := List.mem_iff_getElem?.mp hq
      exact armed k q (State.NonePended.foldl State.nonePended_offer _ v i k q hk hp) (Cue.arms_iff.mpr ⟨hph, hp⟩)
    · obtain ⟨hm, hn⟩ := State.mem_firing_offers he
      rw [or_iff_not_imp_left]
      intro hs
      by_contra hr
      exact hn (List.mem_filter.mpr ⟨hm, by rw [decide_eq_true hs, Bool.eq_true_of_not_eq_false hr]; rfl⟩)
  case armed =>
    rw [State.abandonCue_armed hq ha]
    exact ⟨(s.movedCue_setCueState i k .abandoned).of_slots rfl rfl, rfl⟩
  case queued =>
    rw [State.abandonCue_queued hq hb hr hc]
    exact ⟨(s.movedCue_setCueState i k .abandoned).of_slots rfl rfl, rfl⟩
  case other =>
    exact State.abandonCue_eq_self fun p hp => Option.some.inj (hq.symm.trans hp) ▸ ⟨ha, hb⟩

/-- Settles O43: the four checks in their order, and then the place in the queue and the grant of an idle channel. -/
theorem offerIsDecidedByTheChannel : Obligations.OfferIsDecidedByTheChannel := by
  rintro s w e q r x hq hr rfl rfl
  have failed {cause : FailCause} (h : (s.channel r.delivery.channel).refuses q.spec.action = some cause) :
      (s.unlisted e).FailedCue (s.offer e) e.slot e.index cause := by
    rw [State.offer_refused hq hr h]
    exact State.failedCue_failCue _ _ _ cause
  refine ⟨fun h => failed (Channel.refuses_offline h), fun hk => ⟨fun ha => failed (Channel.refuses_kind hk ha), fun ha =>
    ⟨fun hf hm => failed (Channel.refuses_fault hk ha ⟨hf, hm⟩), fun hf =>
      ⟨fun hl => failed (Channel.refuses_full hk ha hf hl), fun y hy => ?accepted⟩⟩⟩⟩
  case accepted =>
    have accepted (hl : (s.channel r.delivery.channel).queue.length < 8) :
        s.offer e = ((s.unlisted e).queueAt r.delivery.channel y).grant r.delivery.channel := by
      rw [State.offer_accepted hq hr (Channel.refuses_none hk ha hf hl), hy]
      rfl
    have record : ((s.unlisted e).queueAt r.delivery.channel y).channel r.delivery.channel =
        { s.channel r.delivery.channel with queue := enqueue y (s.channel r.delivery.channel).queue } :=
      State.setChannel_channel_self _ _ _
    have cue : y.cue = ⟨e.slot, (s.slot e.slot).airing, e.index⟩ := by rw [hy]
    refine ⟨fun hl hnr => ?waits, fun hempty hready => ?sends⟩
    case waits =>
      obtain ⟨before, after, hs, hi, hb, hh⟩ := enqueue_split y (s.channel r.delivery.channel).queue
      have idle : s.offer e = (s.unlisted e).queueAt r.delivery.channel y := by
        rw [accepted hl]
        refine State.grant_idle fun h => absurd ?_ hnr
        rwa [record] at h
      have moved := ((s.unlisted e).movedCue_setCueState y.cue.slot y.cue.index .queued).of_slots
        (v := (s.unlisted e).queueAt r.delivery.channel y) rfl rfl
      rw [cue] at moved
      rw [hy] at hb hh
      refine ⟨before, after, hs, hb, hh, by rw [idle]; exact moved, ?_⟩
      rw [idle, ← hi]
      rfl
    case sends =>
      rw [accepted (by rw [hempty]; decide)]
      have ready : (((s.unlisted e).queueAt r.delivery.channel y).channel r.delivery.channel).state = .ready := by rw [record, hready]
      have head : (((s.unlisted e).queueAt r.delivery.channel y).channel r.delivery.channel).queue = [y] := by
        rw [record, hempty]
        rfl
      have sent := (State.sentFrom_send ((s.unlisted e).queueAt r.delivery.channel y) r.delivery.channel y []).of_queueAt
      refine ⟨fun runs => ?_, fun runs => ⟨_, _, sent, by rw [State.send_channel_self], ?_⟩⟩
      · rw [State.grant_runs ready head runs]
        exact sent
      · rw [State.grant_done ready head runs]
        refine State.grant_idle fun _ => ?_
        rw [State.commandEnded, State.setCuesDone_channel, State.setChannel_channel_self, State.send_channel_self]

end Sys2Proof
end

section
/-! PROOFS. The cue scheduler's frame work: its completions taken from the head of the list, and the cues reached offered (R98, R103,
R104). -/

namespace Sys2Proof.Machine

variable {s u : State} {d : CueDone} {l : List CueDone}

/-! ### One completion taken (R103, R104) -/

theorem State.applies_iff : s.applies d = true ↔ (s.slot d.cue.slot).isLive = true ∧ (s.slot d.cue.slot).airing = d.cue.airing ∧
    ∃ q, s.cue? d.cue.slot d.cue.index = some q ∧ q.state = .sent := by
  rw [State.applies, Bool.and_eq_true, Bool.and_eq_true, decide_eq_true_eq, and_assoc]
  refine and_congr_right fun _ => and_congr_right fun _ => ?_
  cases s.cue? d.cue.slot d.cue.index <;> simp

/-- A completion that fails a check is orphaned (R104). -/
theorem State.takeCueDone_orphaned (h : s.applies d ≠ true) : s.takeCueDone d = s := if_neg h

theorem State.takeCueDone_done (h : s.applies d = true) (ho : d.outcome = .done) :
    s.takeCueDone d = s.setCueState d.cue.slot d.cue.index .done := by
  rw [State.takeCueDone, if_pos h, ho]

theorem State.takeCueDone_failed (h : s.applies d = true) {cause : FailCause} (ho : d.outcome = .failed cause) :
    s.takeCueDone d = s.failCue d.cue.slot d.cue.index cause := by
  rw [State.takeCueDone, if_pos h, ho]

/-- The three things a completion can come to (R103, R104). -/
theorem State.takeCueDone_cases (s : State) (d : CueDone) : s.takeCueDone d = s ∨
    s.takeCueDone d = s.setCueState d.cue.slot d.cue.index .done ∨
    ∃ cause, s.takeCueDone d = s.failCue d.cue.slot d.cue.index cause := by
  by_cases h : s.applies d = true
  · cases ho : d.outcome with
    | done => exact .inr (.inl (State.takeCueDone_done h ho))
    | failed cause => exact .inr (.inr ⟨cause, State.takeCueDone_failed h ho⟩)
  · exact .inl (State.takeCueDone_orphaned h)

theorem State.takeCueDone_firing (s : State) (d : CueDone) : (s.takeCueDone d).firing = s.firing := by
  rcases s.takeCueDone_cases d with h | h | ⟨cause, h⟩ <;> rw [h] <;> rfl

/-- A completion is taken alike whatever list it was taken from. -/
theorem State.takeCueDone_setCuesDone (s : State) (d : CueDone) (l : List CueDone) :
    (s.setCuesDone l).takeCueDone d = (s.takeCueDone d).setCuesDone l := by
  have same : (s.setCuesDone l).applies d = s.applies d := rfl
  unfold State.takeCueDone
  rw [same]
  split
  · split <;> rfl
  · rfl

theorem State.takeHeadCueDone_nil (h : s.cuesDone = []) : s.takeHeadCueDone = s := by
  rw [State.takeHeadCueDone, h]

theorem State.takeHeadCueDone_cons (h : s.cuesDone = d :: l) : s.takeHeadCueDone = (s.setCuesDone l).takeCueDone d := by
  rw [State.takeHeadCueDone, h]

theorem exec_cueCompletion_eq (hh : s.held = false) : exec .cueCompletion s = .next s.takeHeadCueDone :=
  congrArg Host.Outcome.next (State.unlessHeld_free hh _)

/-! ### The whole list taken (R103) -/

theorem State.takeAllCueDone_nil (h : s.cuesDone = []) : s.takeAllCueDone = s := by
  rw [State.takeAllCueDone, h, List.foldl_nil, ← h]
  rfl

theorem State.takeAllCueDone_cons (h : s.cuesDone = d :: l) : s.takeAllCueDone = s.takeHeadCueDone.takeAllCueDone := by
  rw [State.takeHeadCueDone_cons h, State.takeCueDone_setCuesDone, State.takeAllCueDone, State.takeAllCueDone, h, List.foldl_cons,
    State.takeCueDone_setCuesDone]
  rfl

theorem State.takeAllCueDone_firing (s : State) : s.takeAllCueDone.firing = s.firing :=
  List.foldlRecOn (motive := fun v : State => v.firing = s.firing) s.cuesDone State.takeCueDone rfl
    fun v h d _ => (v.takeCueDone_firing d).trans h

/-- The whole list taken at once is its completions taken one after another, from its head (R103). -/
theorem State.completionsTaken_takeAllCueDone (hh : s.held = false) : s.CompletionsTaken s.takeAllCueDone := by
  generalize hl : s.cuesDone = l
  induction l generalizing s with
  | nil =>
    rw [State.takeAllCueDone_nil hl]
    exact .nil hl
  | cons d l ih =>
    rw [State.takeAllCueDone_cons hl]
    have head : s.takeHeadCueDone = (s.takeCueDone d).setCuesDone l := by
      rw [State.takeHeadCueDone_cons hl, State.takeCueDone_setCuesDone]
    refine .cons (by simp [hl]) (exec_cueCompletion_eq hh) (ih ?_ ?_)
    · rw [head]
      exact (s.cueLevel_takeCueDone d).aside.held.trans hh
    · rw [head]
      rfl

/-! ### The offers of the frame work (R98) -/

theorem State.reachedAtWork_congr (h : s.Aside u) (a : Frame) : u.reachedAtWork a = s.reachedAtWork a := by
  rw [State.reachedAtWork, State.reachedAtWork, State.reached_congr h.sfc, h.counted]

/-- The completions change neither the firing list nor which of it is reached. -/
theorem State.reachedFiring_takeAllCueDone (s : State) :
    s.takeAllCueDone.reachedFiring = s.firing.filter (fun e => s.reachedAtWork e.fire) := by
  rw [State.reachedFiring, State.takeAllCueDone_firing]
  exact List.filter_congr fun e _ => State.reachedAtWork_congr s.cueLevel_takeAllCueDone.aside e.fire

theorem State.schedulerWork_eq (s : State) :
    s.schedulerWork = (s.firing.filter (fun e => s.reachedAtWork e.fire)).foldl State.offer s.takeAllCueDone := by
  rw [← s.reachedFiring_takeAllCueDone]
  rfl

/-- The frame work offers a cue just where one of the firing list is reached (R98). -/
theorem State.offers_iff : s.offers = true ↔ ∃ e ∈ s.firing, s.reachedAtWork e.fire = true := by
  rw [State.offers, State.reachedFiring_takeAllCueDone, Bool.not_eq_true', ← Bool.not_eq_true, List.isEmpty_iff,
    List.filter_eq_nil_iff]
  push Not
  rfl

theorem exec_cueOffer_none (hh : s.held = false) (h : ∀ e ∈ s.firing, s.reachedAtWork e.fire = false) :
    exec .cueOffer s = .next s := by
  refine congrArg Host.Outcome.next ((State.unlessHeld_free hh _).trans (State.workWhen_not ?_))
  rw [← Bool.not_eq_true, State.offers_iff]
  rintro ⟨e, he, hr⟩
  exact Bool.false_ne_true ((h e he).symm.trans hr)

theorem exec_cueOffer_reached (hh : s.held = false) (hd : .scheduler ∈ s.due) (h : ∃ e ∈ s.firing, s.reachedAtWork e.fire = true) :
    exec .cueOffer s = .next (s.setDue (s.due.erase .scheduler)).schedulerWork :=
  congrArg Host.Outcome.next ((State.unlessHeld_free hh _).trans (State.workWhen_due hd (State.offers_iff.mpr h)))

end Sys2Proof.Machine

namespace Sys2Proof

open Sys2Proof.Machine

/-- Settles O44: the frame work is the completions taken and then the offers, and a completion meets its three checks. -/
theorem schedulerOffersAndTakesCompletions : Obligations.SchedulerOffersAndTakesCompletions := by
  intro s hh
  refine ⟨fun hd => ⟨exec_cueOffer_none hh, fun hr => ?offers, fun e rest hc hf hr hn => ?one⟩,
    fun hc => by rw [exec_cueCompletion_eq hh, State.takeHeadCueDone_nil hc], fun d rest hd => ?completion⟩
  case offers =>
    have level := (s.setDue (s.due.erase .scheduler)).cueLevel_schedulerWork
    have due := level.aside.due
    refine ⟨_, exec_cueOffer_reached hh hd hr, fun e he => ?_, due, by rw [due]; exact level.aside, level.tracks, level.orders,
      level.flags, fun i => (level.items i).alike, (s.setDue (s.due.erase .scheduler)).takeAllCueDone, ?_, ?_⟩
    · rw [State.schedulerWork_eq] at he
      obtain ⟨hm, hn⟩ := State.mem_firing_offers he
      rw [State.takeAllCueDone_firing] at hm
      refine ⟨hm, Bool.eq_false_of_not_eq_true fun h => hn (List.mem_filter.mpr ⟨hm, h⟩)⟩
    · rw [due]
      exact State.completionsTaken_takeAllCueDone hh
    · rw [State.schedulerWork_eq]
      exact State.offered_foldl _ _
  case one =>
    have later : rest.filter (fun e => s.reachedAtWork e.fire) = [] :=
      List.filter_eq_nil_iff.mpr fun y hy => by simp [hn y hy]
    have only : s.firing.filter (fun e => s.reachedAtWork e.fire) = [e] := by
      rw [hf, List.filter_cons, if_pos hr, later]
    rw [exec_cueOffer_reached hh hd ⟨e, by rw [hf]; exact List.mem_cons_self, hr⟩, State.schedulerWork_eq,
      State.takeAllCueDone_nil (s := s.setDue (s.due.erase .scheduler)) hc]
    exact congrArg (fun l : List Firing => Host.Outcome.next (l.foldl State.offer (s.setDue (s.due.erase .scheduler)))) only
  case completion =>
    rw [exec_cueCompletion_eq hh, State.takeHeadCueDone_cons hd]
    refine ⟨fun q hl ha hq hs => ?applied, fun h => congrArg Host.Outcome.next (State.takeCueDone_orphaned ?orphaned)⟩
    case applied =>
      have applies : (s.setCuesDone rest).applies d = true := State.applies_iff.mpr ⟨hl, ha, q, hq, hs⟩
      refine ⟨_, rfl, fun ho => ?_, fun cause ho => ?_⟩
      · rw [State.takeCueDone_done applies ho]
        exact ⟨State.movedCue_setCueState _ _ _ .done, rfl⟩
      · rw [State.takeCueDone_failed applies ho]
        exact State.failedCue_failCue _ _ _ cause
    case orphaned =>
      rw [Ne, State.applies_iff]
      rintro ⟨hl, ha, q, hq, hs⟩
      rcases h with h | h | h
      · exact Bool.false_ne_true (h.symm.trans hl)
      · exact h ha
      · exact h q hq hs

end Sys2Proof
end

section
/-! SUPPORT. The match of a route entry, and the entries that a resolution and ROUTE.TEST find in the table (R108, R109,
R115). -/

namespace Sys2Proof.Machine

/-! ### The first record of a bank that passes a test -/

theorem Bank.find?_entries_eq_some {n : Nat} {α : Type} {b : Bank n α} {p : α → Bool} {e : Fin n × α} :
    b.entries.find? (fun e => p e.2) = some e ↔ e.2 = b.get e.1 ∧ p (b.get e.1) = true ∧ ∀ j, j < e.1 → p (b.get j) = false := by
  have entry (k : Nat) (hk : k < b.entries.length) :
      b.entries[k] = (⟨k, b.length_entries ▸ hk⟩, b.get ⟨k, b.length_entries ▸ hk⟩) := by
    simp [Bank.entries, Bank.get]
  rw [List.find?_eq_some_iff_getElem]
  constructor
  · rintro ⟨hp, k, hk, rfl, before⟩
    rw [entry] at hp ⊢
    refine ⟨rfl, hp, fun j hj => ?_⟩
    have hb := before j hj
    rwa [entry, Bool.not_eq_true'] at hb
  · rintro ⟨he, hp, before⟩
    refine ⟨he ▸ hp, e.1.val, by simp, ?_, fun j hj => ?_⟩
    · rw [entry]
      exact Prod.ext rfl he.symm
    · rw [entry, Bool.not_eq_true']
      exact before _ hj

theorem Bank.find?_entries_eq_none {n : Nat} {α : Type} {b : Bank n α} {p : α → Bool} :
    b.entries.find? (fun e => p e.2) = none ↔ ∀ i, p (b.get i) = false := by
  rw [List.find?_eq_none]
  constructor
  · intro h i
    exact Bool.eq_false_of_not_eq_true (h (i, b.get i) (Bank.mem_entries.mpr rfl))
  · intro h e he
    rw [Bank.mem_entries.mp he, h]
    exact Bool.false_ne_true

variable {s : State} {r : Route} {n m : RouteNo} {target : Word16} {a : Action} {t : Track}

/-! ### The match and the resolution of one entry (R108, R109) -/

theorem Route.matches_iff : r.matches target = true ↔ r.hits target := by
  rw [Route.matches, decide_eq_true_iff]
  constructor
  · intro h n hn hm
    have bit : ((target ^^^ r.base) &&& ~~~r.mask).getLsbD n = false :=
      (congrArg (BitVec.getLsbD · n) h).trans BitVec.getLsbD_zero
    rw [BitVec.getLsbD_and, BitVec.getLsbD_xor, BitVec.getLsbD_not, hm] at bit
    simpa [hn] using bit
  · intro h
    refine BitVec.eq_of_getLsbD_eq fun n hn => ?_
    cases hm : r.mask.getLsbD n
    · simp [hm, h n hn hm]
    · simp [hm]

/-- The entry is enabled and matches the target, whatever it permits. -/
theorem Route.found_iff : (r.enabled && r.matches target) = true ↔ r.enabled = true ∧ r.hits target := by
  rw [Bool.and_eq_true, Route.matches_iff]

theorem Route.resolves_iff : r.resolves target a t = true ↔ r.serves target a t := by
  simp only [Route.resolves, Route.permits, Bool.and_eq_true, Route.matches_iff, Route.serves, and_assoc]

theorem Route.resolves_eq_false_iff : r.resolves target a t = false ↔ ¬r.serves target a t := by
  rw [← Bool.not_eq_true, Route.resolves_iff]

/-! ### The entry that resolves, and the entry passed over (R109, R115) -/

theorem State.resolve_entry (hs : (s.route n).serves target a t) (first : ∀ m, m < n → ¬(s.route m).serves target a t) :
    s.resolve target a t = some ⟨.entry n, (s.route n).delivery⟩ := by
  have found : s.routes.entries.find? (fun e => e.2.resolves target a t) = some (n, s.route n) :=
    (Bank.find?_entries_eq_some (p := (Route.resolves · target a t))).mpr
       ⟨rfl, Route.resolves_iff.mpr hs, fun m hm => Route.resolves_eq_false_iff.mpr (first m hm)⟩
  rw [State.resolve, found]

theorem State.resolve_default (h : ∀ n, ¬(s.route n).serves target a t) :
    s.resolve target a t = if s.defaultRoute.enabled then some ⟨.default, s.defaultRoute.delivery⟩ else none := by
  have none_found : s.routes.entries.find? (fun e => e.2.resolves target a t) = none :=
    (Bank.find?_entries_eq_none (p := (Route.resolves · target a t))).mpr fun n => Route.resolves_eq_false_iff.mpr (h n)
  rw [State.resolve, none_found]

/-- Some entry resolves, and then a lowest one does, or none does (R109). -/
theorem State.lowest_serves_or_none (s : State) (target : Word16) (a : Action) (t : Track) :
    (∃ n, (s.route n).serves target a t ∧ ∀ m, m < n → ¬(s.route m).serves target a t) ∨
      ∀ n, ¬(s.route n).serves target a t := by
  by_cases h : ∃ n, (s.route n).serves target a t
  · obtain ⟨n, hn, least⟩ := WellFounded.has_min (wellFounded_lt (α := RouteNo)) {n | (s.route n).serves target a t} h
    exact .inl ⟨n, hn, fun m hm hs => least m hs hm⟩
  · exact .inr (not_exists.mp h)

/-- The examination ends at the first enabled entry that matches: it is the entry passed over, unless it resolves the cue. -/
theorem firstPassedOver_eq (l : List (RouteNo × Route)) : firstPassedOver target a t l =
    ((l.find? (fun e => e.2.enabled && e.2.matches target)).filter (fun e => !e.2.resolves target a t)).map Prod.fst := by
  induction l with
  | nil => rfl
  | cons e l ih =>
    obtain ⟨n, r⟩ := e
    rw [firstPassedOver, List.find?_cons]
    cases hm : r.enabled && r.matches target with
    | false =>
      have unresolved : r.resolves target a t = false := by rw [Route.resolves, hm, Bool.false_and]
      simp [unresolved, ih]
    | true => cases hr : r.resolves target a t <;> simp [hr]

theorem State.passedOver_iff : firstPassedOver target a t s.routes.entries = some m ↔
    ¬(s.route m).serves target a t ∧ ((s.route m).enabled = true ∧ (s.route m).hits target) ∧
      ∀ l, l < m → ¬((s.route l).enabled = true ∧ (s.route l).hits target) := by
  have found (e : RouteNo × Route) : s.routes.entries.find? (fun e => e.2.enabled && e.2.matches target) = some e ↔
      e.2 = s.route e.1 ∧ ((s.route e.1).enabled = true ∧ (s.route e.1).hits target) ∧
        ∀ l, l < e.1 → ¬((s.route l).enabled = true ∧ (s.route l).hits target) := by
    rw [Bank.find?_entries_eq_some (p := fun r : Route => r.enabled && r.matches target)]
    simp only [← Route.found_iff, Bool.not_eq_true]
    rfl
  rw [firstPassedOver_eq, Option.map_eq_some_iff]
  constructor
  · rintro ⟨e, he, rfl⟩
    obtain ⟨hf, hr⟩ := Option.filter_eq_some_iff.mp he
    obtain ⟨hx, hit, before⟩ := (found e).mp hf
    rw [Bool.not_eq_true', hx] at hr
    exact ⟨Route.resolves_eq_false_iff.mp hr, hit, before⟩
  · rintro ⟨hs, hit, before⟩
    refine ⟨(m, s.route m), Option.filter_eq_some_iff.mpr ⟨(found _).mpr ⟨rfl, hit, before⟩, ?_⟩, rfl⟩
    rw [Bool.not_eq_true']
    exact Route.resolves_eq_false_iff.mpr hs

/-- Where an entry resolves, the entry passed over is the first that matches, if that stands below it. -/
theorem State.passedOver_below (hs : (s.route n).serves target a t) (first : ∀ m, m < n → ¬(s.route m).serves target a t) :
    firstPassedOver target a t s.routes.entries = some m ↔ m < n ∧ (s.route m).enabled = true ∧ (s.route m).hits target ∧
      ∀ l, l < m → ¬((s.route l).enabled = true ∧ (s.route l).hits target) := by
  rw [State.passedOver_iff]
  constructor
  · rintro ⟨unserved, ⟨enabled, hit⟩, before⟩
    have ⟨served, hits, _⟩ := hs
    rcases lt_trichotomy m n with below | rfl | above
    · exact ⟨below, enabled, hit, before⟩
    · exact absurd hs unserved
    · exact absurd ⟨served, hits⟩ (before n above)
  · rintro ⟨below, enabled, hit, before⟩
    exact ⟨first m below, ⟨enabled, hit⟩, before⟩

theorem State.passedOver_unserved (h : ∀ n, ¬(s.route n).serves target a t) :
    firstPassedOver target a t s.routes.entries = some m ↔ (s.route m).enabled = true ∧ (s.route m).hits target ∧
      ∀ l, l < m → ¬((s.route l).enabled = true ∧ (s.route l).hits target) := by
  rw [State.passedOver_iff, and_iff_right (h m), and_assoc]

end Sys2Proof.Machine
end

section
/-! PROOFS. ROUTE.TEST (R108, R109, R115). -/

namespace Sys2Proof.Machine

variable {s : State}

theorem exec_routeTest (h : s.portFree) (x n m : Nat) :
    exec (.routeTest x n m) s = .next ((s.select 5).serveRouteTest x n m).buffered := exec_atPort rfl nofun h

@[simp] theorem actionOf_code (a : Action) : actionOf a.code = some a := by cases a <;> rfl

theorem State.serveRouteTest_answers (s : State) (target : Word16) (a : Action) (t : Track) :
    s.serveRouteTest target.toNat a.code (trackCode t) =
      s.accept false (.routeTest (s.resolve target a t) (firstPassedOver target a t s.routes.entries)) := by
  rw [State.serveRouteTest, actionOf_code, State.ranged_some, trackOf_code, State.ranged_some, BitVec.ofNat_toNat,
    BitVec.setWidth_eq]

theorem State.serveRouteTest_range {n m : Nat} (h : 6 ≤ n ∨ 2 ≤ m) (x : Nat) : s.serveRouteTest x n m = s.refuse .range := by
  rw [State.serveRouteTest]
  cases ha : actionOf n with
  | none => rfl
  | some a =>
    have track : 2 ≤ m := h.resolve_left fun hn => by simp [actionOf_none_iff.mpr hn] at ha
    rw [State.ranged_some, trackOf_of_le track, State.ranged_none]

end Sys2Proof.Machine

namespace Sys2Proof

open Sys2Proof.Machine

/-- Settles O45: a lowest entry serves or none does, and in either case the search finds what the statement names. -/
theorem routeTestAnswersTheFirstEntryThatServes : Obligations.RouteTestAnswersTheFirstEntryThatServes := by
  intro s target a t hp
  refine ⟨fun found passed served unserved => ?answers, fun x n m h => ?refused⟩
  case answers =>
    have search : found = s.resolve target a t ∧ passed = firstPassedOver target a t s.routes.entries := by
      rcases s.lowest_serves_or_none target a t with ⟨n, hn, first⟩ | none_serves
      · obtain ⟨hf, passes⟩ := served n hn first
        exact ⟨hf.trans (State.resolve_entry hn first).symm,
          Option.ext fun m => (passes m).trans (State.passedOver_below hn first).symm⟩
      · obtain ⟨on, off, passes⟩ := unserved none_serves
        refine ⟨?_, Option.ext fun m => (passes m).trans (State.passedOver_unserved none_serves).symm⟩
        rw [State.resolve_default none_serves]
        cases hd : s.defaultRoute.enabled with
        | true => exact on hd
        | false => exact off hd
    obtain ⟨rfl, rfl⟩ := search
    refine ⟨?_, rfl⟩
    rw [exec_routeTest hp, State.serveRouteTest_answers]
    rfl
  case refused => rw [exec_routeTest hp, State.serveRouteTest_range h, State.refuse_buffered]

end Sys2Proof
end

section
/-! SUPPORT. The delivery fields that a request carries: when they are refused, what they give, and which are stored at a limit
(R107, R110, R112, R159). -/

namespace Sys2Proof

open Sys2Proof.Machine

variable {d : RawDelivery} {fields first : Nat} {held x : Delivery}

theorem modeOf_none_iff {v : Nat} : modeOf v = none ↔ 3 ≤ v := by
  refine ⟨fun h => ?_, fun h => ?_⟩
  · match v, h with
    | n + 3, _ => omega
  · match v, h with
    | n + 3, _ => rfl

theorem RawDelivery.codesBad_iff :
    ((fields.testBit first && (idOf 12 d.channel).isNone) || (fields.testBit (first + 2) && (modeOf d.mode).isNone)) = true ↔
      deliveryBad d fields first := by
  simp only [Bool.or_eq_true, Bool.and_eq_true, Option.isNone_iff_eq_none, idOf_none_iff, modeOf_none_iff, deliveryBad]

theorem RawDelivery.apply_bad (h : deliveryBad d fields first) (held : Delivery) : d.apply fields first held = none :=
  if_pos (RawDelivery.codesBad_iff.mpr h)

/-- Delivery fields that are not refused are the record that the statements describe field by field. -/
theorem RawDelivery.apply_givenBy (h : ¬deliveryBad d fields first) (hx : x.GivenBy held d fields first) :
    d.apply fields first held = some x := by
  obtain ⟨channel, preroll, mode, dwell, answerTimeout, guard, tolerance⟩ := hx
  rw [RawDelivery.apply, if_neg (mt RawDelivery.codesBad_iff.mp h), Option.some.injEq]
  have given_channel : pick (fields.testBit first) ((idOf 12 d.channel).getD held.channel) held.channel = x.channel := by
    cases hb : fields.testBit first <;> rw [hb] at channel
    · exact channel.symm
    · rw [← show x.channel.val = d.channel from channel, idOf_val]
      rfl
  have given_mode : pick (fields.testBit (first + 2)) ((modeOf d.mode).getD held.mode) held.mode = x.mode := by
    cases hb : fields.testBit (first + 2) <;> rw [hb] at mode
    · exact mode.symm
    · rw [show modeOf d.mode = some x.mode from mode]
      rfl
  rw [given_channel, given_mode]
  simp only [clampTo_zero, clampTo_eq (show 1 ≤ 255 by decide), Nat.min_comm 255, pick]
  rw [← preroll, ← dwell, ← answerTimeout, ← guard, ← tolerance]

theorem RawDelivery.clamped_eq (d : RawDelivery) (fields first : Nat) :
    d.clamped fields first = decide (deliveryClamps d fields first) := by
  rw [Bool.eq_iff_iff]
  simp only [RawDelivery.clamped, outside, Bool.or_eq_true, Bool.and_eq_true, decide_eq_true_eq, Nat.not_lt_zero, Nat.lt_one_iff,
    false_or, or_assoc]

end Sys2Proof
end

section
/-! SUPPORT. ROUTE.WRITE and ROUTE.READ at a free port (R112, R114, R163). -/

namespace Sys2Proof.Machine

variable {s : State} {n : RouteNo} {m fields : Nat} {v : RouteSettings} {x : Route}

theorem exec_routeWrite (h : s.portFree) (m fields : Nat) (v : RouteSettings) :
    exec (.routeWrite m fields v) s = .next ((s.select 21).serveRouteWrite m fields v).buffered := exec_atPort rfl nofun h

theorem exec_routeRead (h : s.portFree) (m : Nat) :
    exec (.routeRead m) s = .next ((s.select 2).serveRouteRead m).buffered := exec_atPort rfl nofun h

theorem idOf_eq_some {k : Nat} {i : Fin k} (h : idOf k m = some i) : i.val = m := by
  rcases Nat.lt_or_ge m k with hm | hm
  · rw [idOf_of_lt hm, Option.some.injEq] at h
    rw [← h]
  · rw [idOf_of_le hm] at h
    cases h

/-! ### ROUTE.WRITE (R112) -/

theorem yesNoOf_none_iff {v : Nat} : yesNoOf v = none ↔ 2 ≤ v := by
  refine ⟨fun h => ?_, yesNoOf_of_le⟩
  match v, h with
  | n + 2, _ => omega

/-- The settings of a ROUTE.WRITE that are refused, beside its entry and its delivery fields. -/
theorem routeSettings_refused_iff : (badFieldSet 12 fields || routeCodesBad fields v) = true ↔
    fields = 0 ∨ 4096 ≤ fields ∨ (fields.testBit 0 = true ∧ 2 ≤ v.enabled) ∨ 4 ≤ v.tracks ∨ 64 ≤ v.actions := by
  simp [badFieldSet, routeCodesBad, yesNoOf_none_iff, or_assoc]

theorem State.serveRouteWrite_range (h : 16 ≤ m ∨ fields = 0 ∨ 4096 ≤ fields ∨ deliveryBad v.delivery fields 5 ∨
    (fields.testBit 0 = true ∧ 2 ≤ v.enabled) ∨ 4 ≤ v.tracks ∨ 64 ≤ v.actions) :
    s.serveRouteWrite m fields v = s.refuse .range := by
  rw [State.serveRouteWrite]
  rcases Nat.lt_or_ge m 16 with hm | hm
  · rw [idOf_of_lt hm, State.ranged_some]
    by_cases settings : (badFieldSet 12 fields || routeCodesBad fields v) = true
    · exact if_pos settings
    · have delivery : deliveryBad v.delivery fields 5 := by
        rw [routeSettings_refused_iff] at settings
        rcases h.resolve_left (Nat.not_le.mpr hm) with h | h | h | h
        · exact absurd (.inl h) settings
        · exact absurd (.inr (.inl h)) settings
        · exact h
        · exact absurd (.inr (.inr h)) settings
      rw [if_neg settings, RawDelivery.apply_bad delivery, State.ranged_none]
  · rw [idOf_of_le hm, State.ranged_none]

/-- A ROUTE.WRITE that is not refused: the entry as given, and the flag that it leaves. -/
theorem State.serveRouteWrite_writes (h0 : 0 < fields) (h1 : fields < 4096) (hd : ¬deliveryBad v.delivery fields 5)
    (he : fields.testBit 0 = true → v.enabled < 2) (ht : v.tracks < 4) (ha : v.actions < 64)
    (hg : x.delivery.GivenBy (s.route n).delivery v.delivery fields 5)
    (hx : x = (s.route n).written fields v x.delivery) :
    s.serveRouteWrite n.val fields v =
      (s.writeRoute n fields x).accept (v.delivery.clamped fields 5) (.route x ((s.writeRoute n fields x).reportedGlobal n)) := by
  have defined : ¬(badFieldSet 12 fields || routeCodesBad fields v) = true := by
    rw [routeSettings_refused_iff]
    rintro (h | h | ⟨hb, h⟩ | h | h)
    · omega
    · omega
    · exact Nat.not_lt.mpr h (he hb)
    · omega
    · omega
  rw [State.serveRouteWrite, idOf_val, State.ranged_some, if_neg defined, RawDelivery.apply_givenBy hd hg, State.ranged_some,
    ← hx]

theorem State.writeRoute_isGlobal (s : State) (n : RouteNo) (fields : Nat) (x : Route) :
    (s.writeRoute n fields x).isGlobal = (s.isGlobal && !(decide (n = 0) && fields.testBit 2)) := by
  unfold State.writeRoute
  by_cases hn : n = 0 <;> cases fields.testBit 2 <;> simp [hn]

/-- A ROUTE.WRITE leaves GLOBAL, or it clears it, writing entry 0 with its mask named (R111, R112). -/
theorem State.serveRouteWrite_isGlobal (s : State) (m fields : Nat) (v : RouteSettings) :
    (s.serveRouteWrite m fields v).state.isGlobal = s.isGlobal ∨
      (s.serveRouteWrite m fields v).state.isGlobal = false ∧ m = 0 ∧ fields.testBit 2 = true := by
  unfold State.serveRouteWrite
  cases hm : idOf 16 m with
  | none => exact .inl rfl
  | some n =>
    rw [State.ranged_some]
    split
    · exact .inl rfl
    · cases v.delivery.apply fields 5 (s.route n).delivery with
      | none => exact .inl rfl
      | some d =>
        dsimp only [State.ranged_some, State.accept]
        rw [State.writeRoute_isGlobal]
        by_cases clears : n = 0 ∧ fields.testBit 2 = true
        · obtain ⟨rfl, mask⟩ := clears
          exact .inr ⟨by simp [mask], (idOf_eq_some hm).symm, mask⟩
        · refine .inl ?_
          rw [← decide_eq_true_iff (p := n = 0), ← Bool.and_eq_true, Bool.not_eq_true] at clears
          rw [clears, Bool.not_false, Bool.and_true]

/-! ### ROUTE.READ (R114) -/

theorem State.serveRouteRead_entry (s : State) (n : RouteNo) : s.serveRouteRead n.val =
    s.accept false (.route (s.route n) (decide (n = 0) && s.isGlobal)) := by
  rw [State.serveRouteRead, if_neg (Nat.ne_of_lt n.isLt), idOf_val, State.ranged_some]
  rfl

theorem State.serveRouteRead_range (h : 16 < m) : s.serveRouteRead m = s.refuse .range := by
  rw [State.serveRouteRead, if_neg h.ne', idOf_of_le h.le, State.ranged_none]

end Sys2Proof.Machine
end

section
/-! SUPPORT. GLOBAL stands through every command but a reset and a ROUTE.WRITE of entry 0 (R111, R112). -/

namespace Sys2Proof.Machine

variable {s u : State} {r : Reply} {c : Instr}

theorem State.RunLevel.isGlobal (h : s.RunLevel u) : u.isGlobal = s.isGlobal := h.aside.isGlobal

theorem State.CueLevel.isGlobal (h : s.CueLevel u) : u.isGlobal = s.isGlobal := h.aside.isGlobal

theorem State.newlySet_isGlobal (s : State) (t : Track) (x : TrackRec) : (s.newlySet t x).isGlobal = s.isGlobal := by
  rw [State.newlySet_eq]

theorem State.configureRate_isGlobal (s : State) (fields : Nat) (v : PartSettings) :
    (s.configureRate fields v).isGlobal = s.isGlobal := by
  rw [State.configureRate_eq]

/-! ### Requests -/

/-- The state that a request's rule leaves holds GLOBAL as it stood. -/
def Reply.GlobalKept (s : State) (r : Reply) : Prop := r.state.isGlobal = s.isGlobal

theorem Reply.GlobalKept.ranged {α : Type} {v : Option α} {f : α → Reply} (h : ∀ x, (f x).GlobalKept s) :
    (s.ranged v f).GlobalKept s := by
  cases v with
  | none => exact rfl
  | some x => exact h x

theorem Reply.GlobalKept.checked {v : Option Result} (h : r.GlobalKept s) : (s.checked v r).GlobalKept s := by
  cases v with
  | none => exact h
  | some x => exact rfl

theorem Reply.GlobalKept.ite {p : Prop} [Decidable p] {a b : Reply} (ha : a.GlobalKept s) (hb : b.GlobalKept s) :
    (if p then a else b).GlobalKept s := by
  split
  · exact ha
  · exact hb

theorem State.direct_globalKept (s : State) (e : Edit) : (s.direct e).GlobalKept s :=
  .ranged fun e => .checked (s.run_makeDirect e).isGlobal

theorem State.serveItemFind_globalKept (s : State) (k : Nat) : (s.serveItemFind k).GlobalKept s := by
  unfold State.serveItemFind
  refine .ite rfl ?_
  split <;> exact rfl

theorem State.serveTake_globalKept (s : State) (t : Nat) : (s.serveTake t).GlobalKept s :=
  .ranged fun t => .ite rfl (by
    split
    · exact rfl
    · exact (s.run_ordinaryTake _ _).isGlobal)

theorem State.serveSkip_globalKept (s : State) (t : Nat) : (s.serveSkip t).GlobalKept s :=
  .ranged fun t => by
    split
    · exact rfl
    · exact (s.sequencer_skip _ _).run.isGlobal

/-- A request leaves GLOBAL, but for ROUTE.WRITE and PART.RESET. -/
theorem State.serve_globalKept (s : State) (hw : ∀ m fields v, c ≠ .routeWrite m fields v) (hr : c ≠ .partReset) :
    (s.serve c).GlobalKept s := by
  cases c
  case routeWrite m fields v => exact absurd rfl (hw m fields v)
  case partReset => exact absurd rfl hr
  case itemCreate | itemUpdate | itemMove | itemRetire | itemRestore | itemCues =>
    simp only [State.serve]
    exact s.direct_globalKept _
  case stagedEdit =>
    simp only [State.serve]
    exact .ite (s.direct_globalKept _) (.ranged fun g => .ranged fun e => .checked (s.run_stage g e).isGlobal)
  case itemFind => simp only [State.serve]; exact s.serveItemFind_globalKept _
  case trackTake => simp only [State.serve]; exact s.serveTake_globalKept _
  case trackSkip => simp only [State.serve]; exact s.serveSkip_globalKept _
  case itemRead => simp only [State.serve]; exact .ranged fun _ => .ite rfl rfl
  case rundownList | routeTest | trackHold =>
    simp only [State.serve]
    exact .ranged fun _ => .ranged fun _ => rfl
  case groupOpen =>
    simp only [State.serve]
    exact .ranged fun _ => .ranged fun _ => .ite rfl rfl
  case groupLaunch =>
    simp only [State.serve]
    exact .ranged fun g => .ranged fun m => .ite (s.run_launchGroup g m).isGlobal rfl
  case groupDiscard =>
    simp only [State.serve]
    exact .ranged fun g => .ite rfl (s.run_discardGroup g).isGlobal
  case trackConfig =>
    simp only [State.serve]
    exact .ranged fun t => .ite rfl (s.newlySet_isGlobal t _)
  case trackReset => simp only [State.serve]; exact .ranged fun t => (s.run_resetTrack t).isGlobal
  case presenterConfig => simp only [State.serve]; exact .ranged fun _ => .ite rfl rfl
  case groupRead | trackRead | presenterSeed | presenterRead | channelRead =>
    simp only [State.serve]
    exact .ranged fun _ => rfl
  case routeRead => simp only [State.serve]; exact .ite rfl (.ranged fun _ => rfl)
  case channelConfig =>
    simp only [State.serve]
    exact .ranged fun _ => .ite rfl (s.cueLevel_configureChannel _ _ _).isGlobal
  case channelClear => simp only [State.serve]; exact .ranged fun c => (s.cueLevel_clearChannel c).isGlobal
  case timeSet | timeRead | eventRead | eventAckReset | partRead => exact rfl
  case partConfig =>
    simp only [State.serve]
    exact .ite rfl (.ranged fun d => State.configureRate_isGlobal _ _ _)
  all_goals exact rfl

/-- The command that alone clears GLOBAL: a ROUTE.WRITE of entry 0 that names its mask (R111, R112). -/
def ClearsGlobal (c : Instr) : Prop := ∃ fields v, c = .routeWrite 0 fields v ∧ fields.testBit 2 = true

theorem State.serve_global (s : State) (hc : c.isReset = false) :
    (s.serve c).state.isGlobal = s.isGlobal ∨ (s.serve c).state.isGlobal = false ∧ ClearsGlobal c := by
  by_cases hw : ∃ m fields v, c = .routeWrite m fields v
  · obtain ⟨m, fields, v, rfl⟩ := hw
    exact (s.serveRouteWrite_isGlobal m fields v).imp_right fun ⟨cleared, zero, mask⟩ =>
      ⟨cleared, fields, v, zero ▸ rfl, mask⟩
  · push Not at hw
    exact .inl (s.serve_globalKept hw fun hr => by rw [hr] at hc; cases hc)

/-- Bytes of a write are refused, or they are served as the command that they spell (R151). -/
theorem State.serveBytes_refuse_or_spelled (s : State) {length : Nat} (h : length ≠ 0) (bytes : List Byte) (part : Bool) :
    (∃ r, s.serveBytes length bytes part = s.refuse r) ∨
      s.serveBytes length bytes part = s.serve (Instr.unknownRequest length bytes part).spelled := by
  cases hf : framing length bytes part with
  | some r => exact .inl ⟨r, s.serveBytes_framing hf⟩
  | none =>
    cases bytes with
    | nil => exact .inl ⟨.frame, by simp [State.serveBytes, hf]⟩
    | cons code body =>
      cases hr : requestOf code.toNat body with
      | none => exact .inl ⟨.range, by simp [State.serveBytes, hf, hr]⟩
      | some c => exact .inr (by rw [State.serveBytes_spelled hf hr]; simp [Instr.spelled, h, hf, hr])

theorem State.serveBytes_global (s : State) {length : Nat} (h : length ≠ 0) {bytes : List Byte} {part : Bool}
    (hc : c = (Instr.unknownRequest length bytes part).spelled) (hr : c.isReset = false) :
    (s.serveBytes length bytes part).state.isGlobal = s.isGlobal ∨
      (s.serveBytes length bytes part).state.isGlobal = false ∧ ClearsGlobal c := by
  rcases s.serveBytes_refuse_or_spelled h bytes part with ⟨r, refused⟩ | spelled
  · rw [refused]
    exact .inl rfl
  · rw [spelled, ← hc]
    exact s.serve_global hr

/-- A request that finds the port busy or the part held leaves GLOBAL; at a free port it does what its rule does. -/
theorem State.request_global (s : State) (n : Nat) {f : State → Reply}
    (h : ∀ v : State, (f v).state.isGlobal = v.isGlobal ∨ (f v).state.isGlobal = false ∧ ClearsGlobal c) :
    (s.request n f).isGlobal = s.isGlobal ∨ (s.request n f).isGlobal = false ∧ s.portFree ∧ ClearsGlobal c := by
  by_cases hh : s.held = true
  · exact .inl (by rw [State.request_held hh])
  · have free : s.held = false := Bool.eq_false_of_not_eq_true hh
    by_cases hb : s.buffer = .empty
    · rw [State.request_free ⟨free, hb⟩]
      exact (h (s.select n)).imp_right fun ⟨cleared, clears⟩ => ⟨cleared, ⟨free, hb⟩, clears⟩
    · rw [State.request_busy free hb]
      exact .inl rfl

theorem State.readOut_isGlobal (s : State) (k : Clocked) : (s.readOut k).isGlobal = s.isGlobal := by
  have consume (v : State) : v.consume.isGlobal = v.isGlobal := by
    unfold State.consume
    split <;> rfl
  unfold State.readOut
  split
  · rfl
  · dsimp only
    split
    · exact consume _
    · rfl
  · exact consume _

/-! ### The links -/

theorem State.workKept_takeDeviceFrame (s : State) (k : Chan) (type : Byte) (payload : List Byte) :
    s.WorkKept (s.takeDeviceFrame k type payload) := by
  unfold State.takeDeviceFrame
  split
  · exact .refl s
  · split
    · exact (s.cueLevel_takeAccept k _).workKept
    · split
      · exact (s.cueLevel_takeRefuse k _).workKept
      · split
        · exact (s.cueLevel_takeStatus k _).workKept
        · exact (s.cueLevel_hear k).workKept

theorem State.workKept_takeEnd (s : State) (script : Word32) (track : Nat) : s.WorkKept (s.takeEnd script track) := by
  unfold State.takeEnd
  split
  · exact .refl s
  · split
    · exact .refl s
    · dsimp only
      split
      · exact (State.run_setSlot _ _ _).workKept
      · exact .refl s

theorem State.workKept_takeFrame (k : RxLink) (s : State) (frame : List Byte) : s.WorkKept (State.takeFrame k s frame) := by
  unfold State.takeFrame
  split
  · cases k with
    | device c => exact s.workKept_takeDeviceFrame c _ _
    | prompter =>
      dsimp only [State.takePrompterFrame]
      split
      · exact s.workKept_takeEnd _ _
      · exact .refl s
  · exact .refl s

theorem State.receive_isGlobal (s : State) (k : RxLink) (bytes : List Byte) : (s.receive k bytes).isGlobal = s.isGlobal := by
  have frames : (s.setRx k ((s.rx k).feedAll bytes).1).WorkKept (s.receive k bytes) := .foldl (State.workKept_takeFrame k) _ _
  rw [frames.isGlobal, State.setRx_isGlobal]

/-! ### Frame work and completions -/

theorem State.workWhen_isGlobal (s : State) (w : FrameWork) (occurs : State → Bool) :
    (s.workWhen w occurs).isGlobal = s.isGlobal := by
  unfold State.workWhen
  split
  · exact (s.workKept_runDue w).isGlobal
  · rfl

theorem State.takeReadDone_isGlobal (s : State) : s.takeReadDone.isGlobal = s.isGlobal := by
  unfold State.takeReadDone
  split
  · rfl
  · exact (State.workKept_learnFrom _ _).isGlobal

theorem State.takeHeadCueDone_isGlobal (s : State) : s.takeHeadCueDone.isGlobal = s.isGlobal := by
  unfold State.takeHeadCueDone
  split
  · rfl
  · exact (State.cueLevel_takeCueDone _ _).isGlobal

/-! ### The time base -/

theorem State.frameEvent_isGlobal (s : State) (e : FrameEvent) : (s.frameEvent e).isGlobal = s.isGlobal :=
  ((State.WorkKept.refl s).frameEvent e).isGlobal

theorem State.ownEvent_isGlobal (s : State) (e : FrameEvent) : (s.ownEvent e).isGlobal = s.isGlobal := by
  unfold State.ownEvent
  split <;> exact State.frameEvent_isGlobal _ e

theorem State.elapse_isGlobal (fuel dt : Nat) (s : State) : (State.elapse fuel dt s).isGlobal = s.isGlobal := by
  induction fuel generalizing dt s with
  | zero => rfl
  | succ fuel ih =>
    rcases Nat.lt_or_ge s.untilOwn dt with past | within
    · rw [State.elapse_past past, ih]
      exact State.ownEvent_isGlobal _ _
    · rw [State.elapse_within within]
      rfl

theorem State.qualify_isGlobal (s : State) : s.qualify.isGlobal = s.isGlobal := by
  rcases Nat.lt_or_ge s.runLength 4 with h | h
  · rw [State.qualify_runs h]
  · rw [State.qualify_relocks h]

theorem State.pulse_isGlobal (s : State) (e : FrameEvent) : (s.pulse e).isGlobal = s.isGlobal := by
  unfold State.pulse
  split
  · split
    · exact State.frameEvent_isGlobal _ e
    · rfl
  · split
    · exact (State.frameEvent_isGlobal _ e).trans s.qualify_isGlobal
    · split
      · exact s.qualify_isGlobal
      · rfl

theorem State.pulseAfter_isGlobal (s : State) (dt : Nat) (e : FrameEvent) : (s.pulseAfter dt e).isGlobal = s.isGlobal :=
  (State.pulse_isGlobal _ e).trans (State.elapse_isGlobal _ _ s)

theorem State.flywheelExpiry_isGlobal (s : State) (e : FrameEvent) : (s.flywheelExpiry e).isGlobal = s.isGlobal := by
  unfold State.flywheelExpiry
  split
  · exact State.frameEvent_isGlobal _ e
  · rfl

theorem State.lossExpiry_isGlobal (s : State) (e : FrameEvent) : (s.lossExpiry e).isGlobal = s.isGlobal := by
  unfold State.lossExpiry
  split
  · exact State.frameEvent_isGlobal _ e
  · rfl

theorem State.unlessHeld_isGlobal {f : State → State} (h : (f s).isGlobal = s.isGlobal) :
    (s.unlessHeld f).isGlobal = s.isGlobal := by
  unfold State.unlessHeld
  split
  · rfl
  · exact h

/-! ### Every command -/

/-- A read and an event leave GLOBAL (R111). -/
theorem exec_event_isGlobal (hq : c.isRequest = false) (hr : c.isReset = false) (he : exec c s = .next u) :
    u.isGlobal = s.isGlobal := by
  cases c
  case powerOn | rstAssert | rstRelease => cases hr
  case readTransaction =>
    obtain rfl := Host.Outcome.next.inj he
    split
    · rfl
    · exact s.readOut_isGlobal _
  case refPulse =>
    obtain rfl := Host.Outcome.next.inj he
    exact State.unlessHeld_isGlobal (s.pulseAfter_isGlobal _ _)
  case flywheelTick =>
    obtain rfl := Host.Outcome.next.inj he
    exact State.unlessHeld_isGlobal (s.flywheelExpiry_isGlobal _)
  case referenceLoss =>
    obtain rfl := Host.Outcome.next.inj he
    exact State.unlessHeld_isGlobal (s.lossExpiry_isGlobal _)
  case presenterCompletion =>
    obtain rfl := Host.Outcome.next.inj he
    exact State.unlessHeld_isGlobal s.takeReadDone_isGlobal
  case cueCompletion =>
    obtain rfl := Host.Outcome.next.inj he
    exact State.unlessHeld_isGlobal s.takeHeadCueDone_isGlobal
  case linkTransmitDone k =>
    obtain rfl := Host.Outcome.next.inj he
    exact State.unlessHeld_isGlobal (s.setTx_isGlobal k _)
  case accept | refuse | status | deviceFrameOther | endReport | discardedLinkFrame =>
    obtain rfl := Host.Outcome.next.inj he
    exact State.unlessHeld_isGlobal (s.receive_isGlobal _ _)
  case panelDebounceExpiry | lockoutExpiry | autoTake | hardInTake | cueOffer | cueAgedLate | dwellExpiry | answerTimeout |
      guardExpiry | recoveryExpiry | silentFault | poll =>
    obtain rfl := Host.Outcome.next.inj he
    exact State.unlessHeld_isGlobal (s.workWhen_isGlobal _ _)
  all_goals cases hq

/-- A write of any bytes is the command that they spell; with a length byte of 0 it is a read (R150, R151). -/
theorem exec_unknownRequest_global {length : Nat} {bytes : List Byte} {part : Bool}
    (hc : c = (Instr.unknownRequest length bytes part).spelled) (hr : c.isReset = false)
    (he : exec (.unknownRequest length bytes part) s = .next u) :
    u.isGlobal = s.isGlobal ∨ u.isGlobal = false ∧ s.portFree ∧ ClearsGlobal c := by
  by_cases h : length = 0
  · subst h
    obtain rfl := Host.Outcome.next.inj he
    rw [if_pos rfl]
    split
    · exact .inl rfl
    · exact .inl (s.readOut_isGlobal _)
  · rw [Instr.exec_unknownRequest (Nat.pos_of_ne_zero h)] at he
    obtain rfl := Host.Outcome.next.inj he
    exact s.request_global _ fun v => v.serveBytes_global h hc hr

/-- A command other than a write of any bytes is itself. -/
theorem spelled_eq_self (hu : ∀ length bytes part, c ≠ .unknownRequest length bytes part) : c.spelled = c := by
  cases c
  case unknownRequest length bytes part => exact absurd rfl (hu length bytes part)
  all_goals rfl

/-- No command but a reset sets GLOBAL, and none but a ROUTE.WRITE of entry 0's mask clears it (R111, R112). -/
theorem exec_global (hr : c.spelled.isReset = false) (he : exec c s = .next u) :
    u.isGlobal = s.isGlobal ∨ u.isGlobal = false ∧ s.portFree ∧ ClearsGlobal c.spelled := by
  by_cases hu : ∃ length bytes part, c = .unknownRequest length bytes part
  · obtain ⟨length, bytes, part, rfl⟩ := hu
    exact exec_unknownRequest_global rfl hr he
  · push Not at hu
    rw [spelled_eq_self hu] at hr ⊢
    cases hq : c.isRequest with
    | false => exact .inl (exec_event_isGlobal hq hr he)
    | true =>
      rw [Instr.exec_request hq hu] at he
      obtain rfl := Host.Outcome.next.inj he
      exact s.request_global _ fun v => v.serve_global hr

end Sys2Proof.Machine
end

section
/-! PROOFS. ROUTE.WRITE, ROUTE.READ and the GLOBAL flag (R111, R112, R114, R163). -/

namespace Sys2Proof.Machine

variable {s : State}

/-- A part reset sets GLOBAL with entry 0's mask (R111, R160, R161). -/
theorem exec_reset_global {t : State} (h : exec .powerOn s = .next t ∨ exec .rstAssert s = .next t ∨
    (s.held = true ∧ exec .rstRelease s = .next t) ∨ (s.portFree ∧ exec .partReset s = .next t)) :
    t.isGlobal = true ∧ (t.route 0).mask = 0xFFFF#16 := by
  rcases h with he | he | ⟨hh, he⟩ | ⟨hp, he⟩
  · obtain rfl := Host.Outcome.next.inj he
    exact ⟨rfl, rfl⟩
  · obtain rfl := Host.Outcome.next.inj he
    exact ⟨rfl, rfl⟩
  · obtain rfl := Host.Outcome.next.inj he
    rw [if_pos hh]
    exact ⟨rfl, rfl⟩
  · rw [exec_atPort (c := .partReset) rfl nofun hp] at he
    obtain rfl := Host.Outcome.next.inj he
    exact ⟨rfl, rfl⟩

end Sys2Proof.Machine

namespace Sys2Proof

open Sys2Proof.Machine

/-- Settles O46: GLOBAL follows every command, and each request is the branch of its rule, with the entry settled field by
field. -/
theorem routeWriteAndRead : Obligations.RouteWriteAndRead := by
  refine ⟨fun c s t he hr => exec_global hr he, fun s t h => exec_reset_global h, fun s n fields v x hp =>
    ⟨?write, fun m h => ?writeRefused, ?readEntry, ?readDefault, fun m h => ?readRefused⟩⟩
  case write =>
    intro h0 h1 hd he ht ha enabled base mask tracks actions delivery
    have written : x = (s.route n).written fields v x.delivery := by
      obtain ⟨_, _, _, _, _, _⟩ := x
      simp only [Route.written, pick, Route.mk.injEq]
      exact ⟨enabled, base, mask, tracks, actions, trivial⟩
    have writes := State.serveRouteWrite_writes (s := s.select 21) h0 h1 hd he ht ha delivery written
    rw [exec_routeWrite hp, writes, RawDelivery.clamped_eq]
    exact ⟨_, rfl, State.writeRoute_isGlobal (s.select 21) n fields x, rfl⟩
  case writeRefused => rw [exec_routeWrite hp, State.serveRouteWrite_range h, State.refuse_buffered]
  case readEntry =>
    rw [exec_routeRead hp, State.serveRouteRead_entry]
    rfl
  case readDefault =>
    rw [exec_routeRead hp]
    rfl
  case readRefused => rw [exec_routeRead hp, State.serveRouteRead_range h, State.refuse_buffered]

end Sys2Proof
end

section
/-! SUPPORT. The end of a command with the sends that follow it, several cues FAILED together, and a fault entry, in the terms of the
statements (R93, R121, R125, R129 to R132). -/

namespace Sys2Proof.Machine

variable {s u : State} {c : Chan} {k : Command} {o : CueOutcome} {q : Queued} {l : List Queued} {cause : FaultCause} {failure : FailCause}

/-! ### Writes that stand side by side -/

/-- Writing back the record that is read changes nothing. -/
theorem State.setChannel_channel_eq (s : State) (c : Chan) : s.setChannel c (s.channel c) = s := by
  rw [State.setChannel, State.channel, Bank.set_get]

theorem State.setCuesDone_setChannel (s : State) (l : List CueDone) (c : Chan) (x : Channel) :
    (s.setCuesDone l).setChannel c x = (s.setChannel c x).setCuesDone l := rfl

theorem State.raise_setChannel (s : State) (e : Event) (c : Chan) (x : Channel) :
    (s.raise e).setChannel c x = (s.setChannel c x).raise e := rfl

theorem State.raise_setCuesDone (s : State) (e : Event) (l : List CueDone) :
    (s.raise e).setCuesDone l = (s.setCuesDone l).raise e := rfl

/-! ### The arbiter and the end of a command (R121, R125) -/

@[simp] theorem State.commandEnded_channel_self (s : State) (c : Chan) (k : Command) (o : CueOutcome) :
    (s.commandEnded c k o).channel c = { s.channel c with
      command := none, state := if k.guard = 0 then .ready else .guard, guard := if k.guard = 0 then (s.channel c).guard else k.guard
      begun := if k.guard = 0 then (s.channel c).begun else decide (.channel c ∈ s.due) } := by
  rw [State.commandEnded, State.setCuesDone_channel, State.setChannel_channel_self]

/-- The arbiter's action, link by link. -/
theorem State.granted_grant (s : State) (c : Chan) : State.Granted c s (s.grant c) := by
  generalize hq : (s.channel c).queue = l
  induction l generalizing s with
  | nil =>
    rw [State.grant_idle fun _ => hq]
    exact .none (.inr hq)
  | cons q l ih =>
    by_cases ready : (s.channel c).state = .ready
    · by_cases runs : q.runs
      · rw [State.grant_runs ready hq runs]
        exact .runs ready hq runs (s.sentFrom_send c q l)
      · rw [State.grant_done ready hq runs]
        refine .done ready hq runs (s.sentFrom_send c q l) ?_ (ih _ ?_)
        · rw [State.send_channel_self]
        · rw [State.commandEnded_channel_self, State.send_channel_self]
    · rw [State.grant_idle fun h => absurd h ready]
      exact .none (.inl ready)

theorem State.endCommand_eq (h : (s.channel c).command = some k) (o : CueOutcome) :
    s.endCommand c o = (s.commandEnded c k o).grant c := by
  rw [State.endCommand, h]
  exact congrArg (State.grant · c) (State.emptySlot_rest h o)

/-- With a guard to run, or nothing queued, nothing follows the end of a command. -/
theorem State.commandEnded_grant (h : k.guard ≠ 0 ∨ (s.channel c).queue = []) (o : CueOutcome) :
    (s.commandEnded c k o).grant c = s.commandEnded c k o := by
  refine State.grant_idle fun ready => ?_
  rw [State.commandEnded_channel_self] at ready ⊢
  rcases h with h | h
  · simp [h] at ready
  · exact h

theorem State.endsCommand_grant (s : State) (c : Chan) (k : Command) (o : CueOutcome) :
    s.EndsCommand ((s.commandEnded c k o).grant c) c k o where
  rests := fun h => State.commandEnded_grant h o
  grants := fun q l hg hq hr => by
    have record := s.commandEnded_channel_self c k o
    rw [State.grant_runs (by rw [record]; exact if_pos hg) (by rw [record]; exact hq) hr]
    exact State.sentFrom_send _ c q l
  chain := State.granted_grant _ c

theorem State.endsCommand_endCommand (h : (s.channel c).command = some k) (o : CueOutcome) :
    s.EndsCommand (s.endCommand c o) c k o := by
  rw [State.endCommand_eq h]
  exact s.endsCommand_grant c k o

/-! ### Cues that fail together (R93, R99) -/

/-- The cue as a failure leaves it. -/
def Cue.failed (cause : FailCause) (z : Cue) : Cue := { z with state := .failed, failCause := some cause }

/-- A cue none of the queued cues names is left. -/
theorem State.failQueued_cue?_other {i : Slot} {n : Nat} (h : ∀ q ∈ l, q.cue.slot ≠ i ∨ q.cue.index ≠ n) :
    (s.failQueued l failure).cue? i n = s.cue? i n := by
  induction l generalizing s with
  | nil => rfl
  | cons q l ih =>
    have apart : ¬(i = q.cue.slot ∧ n = q.cue.index) := by
      rintro ⟨rfl, rfl⟩
      exact (h q List.mem_cons_self).elim (· rfl) (· rfl)
    have rest : ((s.failCue q.cue.slot q.cue.index failure).failQueued l failure).cue? i n = _ :=
      ih fun p hp => h p (List.mem_cons_of_mem q hp)
    exact rest.trans (by rw [State.failCue_cue?, if_neg apart])

/-- A cue that a queued cue names is FAILED with the cause, once or more. -/
theorem State.failQueued_cue? {i : Slot} {n : Nat} (h : ∃ q ∈ l, q.cue.slot = i ∧ q.cue.index = n) :
    (s.failQueued l failure).cue? i n = (s.cue? i n).map (Cue.failed failure) := by
  induction l generalizing s with
  | nil => obtain ⟨q, hq, -⟩ := h; cases hq
  | cons q l ih =>
    have first : (s.failCue q.cue.slot q.cue.index failure).cue? i n =
        if i = q.cue.slot ∧ n = q.cue.index then (s.cue? q.cue.slot q.cue.index).map (Cue.failed failure) else s.cue? i n :=
      s.failCue_cue? _ _ failure i n
    show ((s.failCue q.cue.slot q.cue.index failure).failQueued l failure).cue? i n = _
    by_cases later : ∃ p ∈ l, p.cue.slot = i ∧ p.cue.index = n
    · rw [ih later, first]
      split
      · next here =>
        obtain ⟨rfl, rfl⟩ := here
        rw [Option.map_map]
        rfl
      · rfl
    · have none_later : ∀ p ∈ l, p.cue.slot ≠ i ∨ p.cue.index ≠ n := fun p hp => not_and_or.mp fun named => later ⟨p, hp, named⟩
      obtain ⟨p, hp, rfl, rfl⟩ := h
      rcases List.mem_cons.mp hp with rfl | hp
      · rw [State.failQueued_cue?_other none_later, first, if_pos ⟨rfl, rfl⟩]
      · exact absurd ⟨p, hp, rfl, rfl⟩ later

theorem State.failQueued_slot_other {i : Slot} (h : ∀ q ∈ l, q.cue.slot ≠ i) : (s.failQueued l failure).slot i = s.slot i := by
  induction l generalizing s with
  | nil => rfl
  | cons q l ih =>
    have rest : ((s.failCue q.cue.slot q.cue.index failure).failQueued l failure).slot i = _ :=
      ih fun p hp => h p (List.mem_cons_of_mem q hp)
    exact rest.trans ((s.failedCue_failCue _ _ failure).others i (h q List.mem_cons_self).symm)

/-- A cue fault once set stays, and each failure sets its item's (R93). -/
theorem State.failQueued_cueFault {i : Slot} (h : (s.slot i).cueFault = true ∨ ∃ q ∈ l, q.cue.slot = i) :
    ((s.failQueued l failure).slot i).cueFault = true := by
  induction l generalizing s with
  | nil => exact h.resolve_right fun ⟨q, hq, _⟩ => nomatch hq
  | cons q l ih =>
    refine ih (s := s.failCue q.cue.slot q.cue.index failure) ?_
    have step := s.failedCue_failCue q.cue.slot q.cue.index failure
    by_cases here : i = q.cue.slot
    · rw [here, step.item]
      exact .inl rfl
    · rw [step.others i here]
      refine h.imp_right fun ⟨p, hp, hi⟩ => ⟨p, (List.mem_cons.mp hp).resolve_left fun e => here ?_, hi⟩
      rw [← hi, e]

theorem State.failQueued_flags (s : State) (l : List Queued) (failure : FailCause) :
    (s.failQueued l failure).flags = if l = [] then s.flags else s.flags.put .cueFail := by
  induction l generalizing s with
  | nil => rfl
  | cons q l ih =>
    refine (ih (s.failCue q.cue.slot q.cue.index failure)).trans ?_
    rw [if_neg (List.cons_ne_nil q l)]
    split <;> rfl

/-- Cues that fail reach the item records and CUE_FAIL alone. -/
theorem State.failQueued_eq (s : State) (l : List Queued) (failure : FailCause) :
    s.failQueued l failure = { s with slots := (s.failQueued l failure).slots, flags := (s.failQueued l failure).flags } := by
  induction l generalizing s with
  | nil => rfl
  | cons q l ih => exact ih (s.failCue q.cue.slot q.cue.index failure)

/-! ### A fault entry (R129 to R132) -/

/-- The completion that the end of a channel's command hands. -/
def Channel.handed (x : Channel) (o : CueOutcome) : List CueDone := (x.command.map (fun k => ⟨k.cue, o⟩)).toList

theorem State.emptySlot_eq (s : State) (c : Chan) (o : CueOutcome) :
    s.emptySlot c o = (s.setChannel c { s.channel c with command := none }).setCuesDone (s.cuesDone ++ (s.channel c).handed o) := by
  cases h : (s.channel c).command with
  | none =>
    have same : { s.channel c with command := none } = s.channel c := by rw [← h]
    rw [same, State.setChannel_channel_eq, Channel.handed, h]
    simp [State.emptySlot, h, State.setCuesDone]
  | some k => rw [State.emptySlot_command h, Channel.handed, h]; rfl

/-- The record of a channel whose fault has been noted and whose command and guard have been ended by it (R129 steps 1 to 3). -/
def Channel.stopped (x : Channel) (cause : FaultCause) : Channel :=
  { x with silent := 0, faultFlag := true, faultCause := some cause, command := none, guard := 0 }

/-- Steps 1 to 3 of a fault entry in a mode that ends the command. -/
theorem State.dropCommand_noteFault (h : (s.channel c).faultMode.reports = true) (cause : FaultCause) :
    (s.noteFault c cause).dropCommand c cause =
      ((s.setChannel c ((s.channel c).stopped cause)).setCuesDone
        (s.cuesDone ++ (s.channel c).handed (.failed cause.failCause))).raise .channelFault := by
  have noted : s.noteFault c cause =
      (s.setChannel c { s.channel c with silent := 0, faultFlag := true, faultCause := some cause }).raise .channelFault := by
    rw [State.noteFault, if_pos h]
  rw [State.dropCommand, State.emptySlot_eq, noted]
  simp only [State.raise_channel, State.setChannel_channel_self, State.raise_setChannel, State.raise_setCuesDone,
    State.setCuesDone_setChannel, State.setCuesDone_channel, State.setChannel_setChannel, State.raise_cuesDone,
    State.setChannel_cuesDone]
  rfl

section
variable (hf : (s.channel c).state ≠ .faulted)
include hf

theorem State.enterFault_ignore (hm : (s.channel c).faultMode = .ignore) (cause : FaultCause) :
    s.enterFault c cause = s.setChannel c { s.channel c with silent := 0 } := by
  rw [State.enterFault, if_neg hf, hm]
  simp only [State.noteFault, hm, FaultMode.reports]
  rfl

theorem State.enterFault_report (hm : (s.channel c).faultMode = .report) (cause : FaultCause) :
    s.enterFault c cause =
      (s.setChannel c { s.channel c with silent := 0, faultFlag := true, faultCause := some cause }).raise .channelFault := by
  rw [State.enterFault, if_neg hf, hm]
  simp only [State.noteFault, hm, FaultMode.reports]
  rfl

theorem State.enterFault_retry (hm : (s.channel c).faultMode = .retry) (cause : FaultCause) :
    s.enterFault c cause =
      ((s.setChannel c { (s.channel c).stopped cause with
        state := .recovering, recovery := (s.channel c).retryInterval, begun := s.beginsEarly c }).setCuesDone
          (s.cuesDone ++ (s.channel c).handed (.failed cause.failCause))).raise .channelFault := by
  rw [State.enterFault, if_neg hf, hm]
  simp only [State.dropCommand_noteFault (s := s) (c := c) (by rw [hm]; rfl), State.raise_channel, State.setCuesDone_channel,
    State.setChannel_channel_self, State.raise_setChannel, State.setCuesDone_setChannel, State.setChannel_setChannel]
  rfl

theorem State.enterFault_latch (hm : (s.channel c).faultMode = .latch) (cause : FaultCause) :
    s.enterFault c cause =
      (((s.setChannel c { (s.channel c).stopped cause with state := .faulted, queue := [] }).setCuesDone
        (s.cuesDone ++ (s.channel c).handed (.failed cause.failCause))).raise .channelFault).failQueued
          (s.channel c).queue .channelFault := by
  rw [State.enterFault, if_neg hf, hm]
  simp only [State.failQueue, State.dropCommand_noteFault (s := s) (c := c) (by rw [hm]; rfl), State.raise_channel,
    State.setCuesDone_channel, State.setChannel_channel_self, State.raise_setChannel, State.setCuesDone_setChannel,
    State.setChannel_setChannel]
  rfl

/-- A fault entry in the terms of the statements. -/
theorem State.faultEntered_enterFault (cause : FaultCause) : s.FaultEntered (s.enterFault c cause) c cause cause.failCause where
  others := (s.onChannel_enterFault c cause).others
  ignore := fun hm => State.enterFault_ignore hf hm cause
  report := fun hm => State.enterFault_report hf hm cause
  retry := fun hm => State.enterFault_retry hf hm cause
  latch := fun hm => by
    rw [State.enterFault_latch hf hm]
    generalize hv : ((s.setChannel c { (s.channel c).stopped cause with state := .faulted, queue := [] }).setCuesDone
      (s.cuesDone ++ (s.channel c).handed (.failed cause.failCause))).raise .channelFault = v
    have failed := v.failQueued_eq (s.channel c).queue .channelFault
    refine ⟨?record, ?completion, ?flag, ?rest, fun q hq z hz => ?cues, fun hq => ?slots⟩
    case record =>
      rw [State.failQueued_channel, ← hv, State.raise_channel, State.setCuesDone_channel, State.setChannel_channel_self]
      rfl
    case completion =>
      rw [failed, ← hv]
      rfl
    case flag =>
      refine (v.cueLevel_failQueued _ _).flags _ ?_
      rw [← hv, State.raise_flags, EventSet.get_put_self]
    case rest =>
      rw [failed, ← hv]
      rfl
    case cues =>
      rw [State.failQueued_cue? ⟨q, hq, rfl, rfl⟩] at hz
      obtain ⟨y, -, rfl⟩ := Option.map_eq_some_iff.mp hz
      exact ⟨rfl, rfl, State.failQueued_cueFault (.inr ⟨q, hq, rfl⟩)⟩
    case slots =>
      rw [hq, ← hv]
      rfl

end

end Sys2Proof.Machine
end

section
/-! PROOFS. CHANNEL.CLEAR and CHANNEL.READ (R121, R135, R136). -/

namespace Sys2Proof.Machine

variable {s : State} {c : Chan} {n : Nat}

theorem exec_channelClear (h : s.portFree) (n : Nat) :
    exec (.channelClear n) s = .next ((s.select 2).serveChannelClear n).buffered := exec_atPort rfl nofun h

theorem exec_channelRead (h : s.portFree) (n : Nat) :
    exec (.channelRead n) s = .next ((s.select 2).serveChannelRead n).buffered := exec_atPort rfl nofun h

theorem State.serveChannelClear_val (s : State) (c : Chan) : s.serveChannelClear c.val =
    (s.clearChannel c).accept false (.channelCleared ((s.clearChannel c).channel c).state) := by
  rw [State.serveChannelClear, idOf_val, State.ranged_some]

theorem State.withBuffer_grant (s : State) (b : Buffer) (c : Chan) : (s.withBuffer b).grant c = (s.grant c).withBuffer b :=
  (State.withPorts_grant s b s.prompterTx c).trans ((s.cueLevel_grant c).withPorts b)

/-- The state once a CHANNEL.CLEAR is answered and has brought its channel to READY, before the arbiter acts. -/
def State.revivedAnswering (s : State) (c : Chan) (answer : ChannelState) : State :=
  (s.answeredWith 2 .ok (.channelCleared answer)).setChannel c (s.channel c).revived

@[simp] theorem State.revivedAnswering_channel_self (s : State) (c : Chan) (answer : ChannelState) :
    (s.revivedAnswering c answer).channel c = (s.channel c).revived := State.setChannel_channel_self _ _ _

/-- A stopped channel cleared: the arbiter acts on its queue, and the answer gives the state the channel comes to (R121, R135). -/
theorem exec_channelClear_stopped (hp : s.portFree) (h : (s.channel c).state = .faulted ∨ (s.channel c).state = .recovering) :
    ∃ u, exec (.channelClear c.val) s = .next u ∧ u = (s.revivedAnswering c (u.channel c).state).grant c := by
  have cleared : (s.select 2).clearChannel c = ((s.select 2).setChannel c (s.channel c).revived).grant c :=
    State.clearChannel_stopped (s := s.select 2) h
  rw [exec_channelClear hp, State.serveChannelClear_val, cleared]
  exact ⟨_, rfl, (State.withBuffer_grant _ _ c).symm⟩

end Sys2Proof.Machine

namespace Sys2Proof

open Sys2Proof.Machine

/-- Settles O48: the clear by the channel's state, its grants told of the state that is already answered, and the record reported. -/
theorem channelClearAndRead : Obligations.ChannelClearAndRead := by
  rintro s c x hp rfl
  refine ⟨fun h => ?offline, fun h => ?serving, fun h => ?stopped, ?read, fun n h => ⟨?clearRange, ?readRange⟩⟩
  case offline =>
    have cleared : (s.select 2).clearChannel c = s.select 2 := State.clearChannel_offline h
    rw [exec_channelClear hp, State.serveChannelClear_val, cleared, State.accept_buffered]
    exact congrArg (fun st => Host.Outcome.next (s.answeredWith 2 .ok (.channelCleared st))) h
  case serving =>
    have cleared : (s.select 2).clearChannel c = (s.select 2).setChannel c (s.channel c).cleared := State.clearChannel_serving h
    rw [exec_channelClear hp, State.serveChannelClear_val, cleared, State.setChannel_channel_self]
    rfl
  case stopped =>
    obtain ⟨u, he, hu⟩ := exec_channelClear_stopped hp h
    refine ⟨fun hq => ?idle, fun q rest hq runs => ⟨u, he, ?sends⟩, ⟨u, he, ?chain⟩⟩
    case idle =>
      rw [State.grant_idle fun _ => by rw [State.revivedAnswering_channel_self]; exact hq] at hu
      have ready : (u.channel c).state = .ready := by rw [hu, State.revivedAnswering_channel_self]; rfl
      rw [he, hu, ready]
      rfl
    case sends =>
      rw [State.grant_runs (by rw [State.revivedAnswering_channel_self]; rfl)
        (by rw [State.revivedAnswering_channel_self]; exact hq) runs] at hu
      have busy : (u.channel c).state = .busy := by rw [hu, State.send_channel_self]
      rw [hu, busy]
      exact State.sentFrom_send _ c q rest
    case chain =>
      have granted := State.granted_grant (s.revivedAnswering c (u.channel c).state) c
      rwa [← hu] at granted
  case read =>
    rw [exec_channelRead hp, State.serveChannelRead, idOf_val, State.ranged_some]
    rfl
  case clearRange => rw [exec_channelClear hp, State.serveChannelClear, idOf_of_le h, State.ranged_none, State.refuse_buffered]
  case readRange => rw [exec_channelRead hp, State.serveChannelRead, idOf_of_le h, State.ranged_none, State.refuse_buffered]

end Sys2Proof
end

section
/-! PROOFS. The frames of a device (R124 to R126, R129, R164). -/

namespace Sys2Proof.Machine

variable {s : State} {c : Chan} {k : Command} {tag : Byte}

/-! ### A whole frame at a hunting receiver -/

/-- A whole valid frame that finds the receiver hunting is taken by its type. -/
theorem State.receive_deviceFrame (hr : s.rx (.device c) = .hunting) {type : Byte} {payload : List Byte} (hl : payload.length < 256)
    (hs : ∀ n ∈ incomingSize (.device c) type, payload.length = n) :
    s.receive (.device c) (linkFrame type payload) = s.takeDeviceFrame c type payload := by
  rw [State.receive_linkFrame s _ type payload hr hl, s.setRx_hunting _ hr, State.takeFrame,
    if_pos (validFrame_frameBody _ type payload hl hs), headD_frameBody, payloadOf_frameBody]

section
variable (hh : s.held = false) (hr : s.rx (.device c) = .hunting)
include hh hr

/-- A frame of one payload byte, as those that answer a command or give a status. -/
theorem State.unlessHeld_receive_byte {type : Byte} (hi : incomingSize (.device c) type = some 1) (b : Byte) :
    s.unlessHeld (fun s => s.receive (.device c) (linkFrame type [b])) = s.takeDeviceFrame c type [b] :=
  (State.unlessHeld_free hh _).trans
    (State.receive_deviceFrame hr (show 1 < 256 by decide) fun _ h => Option.some.inj (hi.symm.trans h))

theorem exec_accept (tag : Byte) : exec (.accept c tag) s = .next (s.takeDeviceFrame c 0x81 [tag]) :=
  congrArg Host.Outcome.next (State.unlessHeld_receive_byte hh hr rfl tag)

theorem exec_refuse (tag : Byte) : exec (.refuse c tag) s = .next (s.takeDeviceFrame c 0x82 [tag]) :=
  congrArg Host.Outcome.next (State.unlessHeld_receive_byte hh hr rfl tag)

theorem exec_status (value : Byte) : exec (.status c value) s = .next (s.takeDeviceFrame c 0x83 [value]) :=
  congrArg Host.Outcome.next (State.unlessHeld_receive_byte hh hr rfl value)

theorem exec_deviceFrameOther {type : Byte} {payload : List Byte} (hi : incomingSize (.device c) type = none)
    (hl : payload.length < 256) : exec (.deviceFrameOther c type payload) s = .next (s.takeDeviceFrame c type payload) :=
  congrArg Host.Outcome.next ((State.unlessHeld_free hh _).trans
    (State.receive_deviceFrame hr hl fun _ h => by rw [hi] at h; cases h))

end

/-! ### The frame taken by its type (R126) -/

theorem State.takeDeviceFrame_offline (h : (s.channel c).state = .offline) (type : Byte) (payload : List Byte) :
    s.takeDeviceFrame c type payload = s := if_pos h

section
variable (h : (s.channel c).state ≠ .offline)
include h

theorem State.takeDeviceFrame_accept (tag : Byte) : s.takeDeviceFrame c 0x81 [tag] = s.takeAccept c tag := if_neg h

theorem State.takeDeviceFrame_refuse (tag : Byte) : s.takeDeviceFrame c 0x82 [tag] = s.takeRefuse c tag := if_neg h

theorem State.takeDeviceFrame_status (value : Byte) : s.takeDeviceFrame c 0x83 [value] = s.takeStatus c value := if_neg h

theorem State.takeDeviceFrame_other {type : Byte} (hi : incomingSize (.device c) type = none) (payload : List Byte) :
    s.takeDeviceFrame c type payload = s.hear c := by
  have other : ¬(type = 0x81 ∨ type = 0x82 ∨ type = 0x83) := fun listed => by
    rw [incomingSize, if_pos listed] at hi
    cases hi
  rw [not_or, not_or] at other
  obtain ⟨accept, refuse, status⟩ := other
  rw [State.takeDeviceFrame, if_neg h, if_neg accept, if_neg refuse, if_neg status]

end

/-! ### The command that a tag answers (R124, R126) -/

/-- The tag of the command in the slot of a BUSY channel answers that command. -/
theorem State.answered_own (hb : (s.channel c).state = .busy) (hk : (s.channel c).command = some k) :
    s.answered c (k.tag.setWidth 8) = some k := by
  rw [State.answered, if_pos hb, hk]
  simp

/-- Any other tag, or one that comes where nothing was sent, answers none. -/
theorem State.answered_none (h : (s.channel c).state ≠ .busy ∨ ∀ k, (s.channel c).command = some k → tag ≠ k.tag.setWidth 8) :
    s.answered c tag = none := by
  rw [State.answered]
  split
  · next hb =>
    rw [Option.filter_eq_none_iff]
    exact fun k hk => by simpa using h.resolve_left (not_not.mpr hb) k hk
  · rfl

/-- A command that an answer ends, told of the state in which the answer has been heard. -/
theorem State.endsCommand_hear (hk : (s.channel c).command = some k) (o : CueOutcome) :
    (s.hear c).EndsCommand ((s.hear c).endCommand c o) c k o :=
  State.endsCommand_endCommand (by rw [State.hear, State.setChannel_channel_self]; exact hk) o

end Sys2Proof.Machine

namespace Sys2Proof

open Sys2Proof.Machine

/-- Settles O49: each frame taken by its type, and by whether its tag answers the command in the slot. -/
theorem deviceFramesActOnTheCommand : Obligations.DeviceFramesActOnTheCommand := by
  rintro s c x hh hr rfl
  refine ⟨fun h b type payload hi hl => ?offline, fun h w hw => ?heard⟩
  case offline =>
    rw [exec_accept hh hr, exec_refuse hh hr, exec_status hh hr, exec_deviceFrameOther hh hr hi hl]
    simp only [State.takeDeviceFrame_offline h, and_self]
  case heard =>
    obtain rfl : w = s.hear c := hw
    refine ⟨fun k tag hb hk ht => ⟨fun hm => ?timed, fun hm => ⟨_, ?accepted, State.endsCommand_hear hk .done⟩,
      ⟨_, ?refused, State.endsCommand_hear hk (.failed .refused)⟩⟩, fun tag hn => ⟨?strayAccept, ?strayRefuse⟩,
      fun value hv => ?status, fun hf => ⟨(s.hear c).enterFault c .deviceError, ?fault, ?entered⟩, fun type payload hi hl => ?other⟩
    case timed =>
      rw [exec_accept hh hr, State.takeDeviceFrame_accept h, State.takeAccept, ht, State.answered_own hb hk]
      exact congrArg Host.Outcome.next (if_pos hm)
    case accepted =>
      rw [exec_accept hh hr, State.takeDeviceFrame_accept h, State.takeAccept, ht, State.answered_own hb hk]
      exact congrArg Host.Outcome.next (if_neg hm)
    case refused => rw [exec_refuse hh hr, State.takeDeviceFrame_refuse h, State.takeRefuse, ht, State.answered_own hb hk]
    case strayAccept => rw [exec_accept hh hr, State.takeDeviceFrame_accept h, State.takeAccept, State.answered_none hn]
    case strayRefuse => rw [exec_refuse hh hr, State.takeDeviceFrame_refuse h, State.takeRefuse, State.answered_none hn]
    case status =>
      rw [exec_status hh hr, State.takeDeviceFrame_status h, State.takeStatus]
      split
      · next he =>
        have faulted : ((s.hear c).channel c).state = .faulted := by
          rw [State.hear, State.setChannel_channel_self]
          exact hv.resolve_left (not_not.mpr he)
        rw [State.enterFault, if_pos faulted]
      · rfl
    case fault =>
      rw [exec_status hh hr, State.takeDeviceFrame_status h, State.takeStatus, if_pos rfl]
    case entered =>
      refine State.faultEntered_enterFault ?_ .deviceError
      rwa [State.hear, State.setChannel_channel_self]
    case other => rw [exec_deviceFrameOther hh hr hi hl, State.takeDeviceFrame_other h hi]

end Sys2Proof
end

section
/-! SUPPORT. The seven steps of a channel's frame work, one after another, in the terms of the statements (R122 to R124, R127, R128,
R131). -/

namespace Sys2Proof.Machine

variable {s u : State} {c : Chan} {k : Command} {o : CueOutcome} {q : Queued} {x : Channel} {running : Bool}

/-! ### Before the steps: the mark taken away -/

theorem Channel.counting_iff {st : ChannelState} : x.counting st = true ↔ x.state = st ∧ x.begun = false := by
  simp [Channel.counting]

@[simp] theorem State.beginWork_channel_self (s : State) (c : Chan) :
    (s.beginWork c).channel c = { s.channel c with begun := false } := State.setChannel_channel_self _ _ _

theorem State.beginWork_unmarked (h : (s.channel c).begun = false) : s.beginWork c = s := by
  have same : { s.channel c with begun := false } = s.channel c := by rw [← h]
  rw [State.beginWork, same, State.setChannel_channel_eq]

/-! ### Step 1: the queue aged (R123) -/

theorem State.agedOut_iff : s.agedOut q = true ↔ (q.tolerance : Int) < frameDiff s.sfc q.fire := decide_eq_true_iff

theorem State.not_agedOut (s : State) (q : Queued) : (!s.agedOut q) = decide (frameDiff s.sfc q.fire ≤ q.tolerance) := by
  rw [State.agedOut, ← decide_not]
  exact decide_eq_decide.mpr Int.not_lt

theorem State.ageQueue_channel_self (s : State) (c : Chan) : (s.ageQueue c).channel c = { s.channel c with
    queue := (s.channel c).queue.filter (fun q => decide (frameDiff s.sfc q.fire ≤ q.tolerance)) } := by
  rw [State.ageQueue, State.failQueued_channel, State.setChannel_channel_self]
  simp only [State.not_agedOut]

/-- A queue with nothing past its tolerance is left. -/
theorem State.ageQueue_fresh (h : ∀ q ∈ (s.channel c).queue, frameDiff s.sfc q.fire ≤ q.tolerance) : s.ageQueue c = s := by
  have stays : (s.channel c).queue.filter (fun q => !s.agedOut q) = (s.channel c).queue :=
    List.filter_eq_self.mpr fun q hq => by rw [State.not_agedOut]; exact decide_eq_true (h q hq)
  have none_late : (s.channel c).queue.filter s.agedOut = [] :=
    List.filter_eq_nil_iff.mpr fun q hq => by rw [State.agedOut_iff]; exact Int.not_lt.mpr (h q hq)
  simp only [State.ageQueue, stays, none_late]
  exact s.setChannel_channel_eq c

/-- A cue past its tolerance is FAILED LATE. -/
theorem State.ageQueue_cue?_late (hq : q ∈ (s.channel c).queue) (ha : (q.tolerance : Int) < frameDiff s.sfc q.fire) :
    (s.ageQueue c).cue? q.cue.slot q.cue.index = (s.cue? q.cue.slot q.cue.index).map (Cue.failed .late) :=
  State.failQueued_cue? ⟨q, List.mem_filter.mpr ⟨hq, State.agedOut_iff.mpr ha⟩, rfl, rfl⟩

theorem State.queueAged_ageQueue (s : State) (c : Chan) : s.QueueAged (s.ageQueue c) c where
  channel := s.ageQueue_channel_self c
  otherChannels := fun d hd => (State.failQueued_channel _ _ _ d).trans (State.setChannel_channel_ne _ _ _ hd)
  late := fun q hq ha =>
    ⟨State.failQueued_cueFault (.inr ⟨q, List.mem_filter.mpr ⟨hq, State.agedOut_iff.mpr ha⟩, rfl⟩), fun z hz => by
      rw [State.ageQueue_cue?_late hq ha, hz]
      rfl⟩
  otherCues := fun i n h => State.failQueued_cue?_other fun q hq =>
    h q (List.mem_filter.mp hq).1 (State.agedOut_iff.mp (List.mem_filter.mp hq).2)
  items := fun i => ((s.cueLevel_ageQueue c).items i).eq
  others := fun i h => State.failQueued_slot_other fun q hq =>
    h q (List.mem_filter.mp hq).1 (State.agedOut_iff.mp (List.mem_filter.mp hq).2)
  flags := by
    rw [State.ageQueue, State.failQueued_flags]
    by_cases late : ∃ q ∈ (s.channel c).queue, (q.tolerance : Int) < frameDiff s.sfc q.fire
    · obtain ⟨q, hq, ha⟩ := id late
      rw [if_pos late, if_neg (List.ne_nil_of_mem (List.mem_filter.mpr ⟨hq, State.agedOut_iff.mpr ha⟩))]
      rfl
    · rw [if_neg late, if_pos (List.filter_eq_nil_iff.mpr fun q hq ha => late ⟨q, hq, State.agedOut_iff.mp ha⟩)]
      rfl
  rest := by
    rw [State.ageQueue, State.failQueued_eq]
    rfl

/-! ### Step 2: the busy count (R122, R124) -/

theorem Command.dwellReached_tick : k.tick.dwellReached = true ↔ k.mode ≠ .answer ∧ k.dwell ≤ k.busy + 1 := by
  rw [Command.dwellReached, Command.tick]
  cases k.mode <;> simp

theorem Command.timeoutReached_tick : k.tick.timeoutReached = true ↔ k.mode = .answer ∧ k.answerTimeout ≤ k.busy + 1 := by
  rw [Command.timeoutReached, Bool.and_eq_true, decide_eq_true_eq, decide_eq_true_eq]
  rfl

/-- The state with the busy count of a channel's command one on. -/
def State.ticked (s : State) (c : Chan) (k : Command) : State := s.setChannel c { s.channel c with command := some k.tick }

@[simp] theorem State.ticked_channel_self (s : State) (c : Chan) (k : Command) :
    (s.ticked c k).channel c = { s.channel c with command := some k.tick } := State.setChannel_channel_self _ _ _

/-- The end of a command does not depend on its count. -/
theorem State.ticked_commandEnded (s : State) (c : Chan) (k : Command) (o : CueOutcome) :
    (s.ticked c k).commandEnded c k.tick o = s.commandEnded c k o := by
  rw [State.commandEnded, State.ticked_channel_self, State.ticked, State.setChannel_setChannel]
  rfl

theorem State.ticked_endCommand (s : State) (c : Chan) (k : Command) (o : CueOutcome) :
    (s.ticked c k).endCommand c o = (s.commandEnded c k o).grant c := by
  rw [State.endCommand_eq (k := k.tick) (by rw [State.ticked_channel_self]), State.ticked_commandEnded]

/-- A fault entry that ends the command does not depend on its count. -/
theorem State.ticked_enterFault (hf : (s.channel c).state ≠ .faulted) (hk : (s.channel c).command = some k)
    (hm : (s.channel c).faultMode = .latch ∨ (s.channel c).faultMode = .retry) (cause : FaultCause) :
    (s.ticked c k).enterFault c cause = s.enterFault c cause := by
  have handed (o : CueOutcome) : ((s.ticked c k).channel c).handed o = (s.channel c).handed o := by
    simp only [Channel.handed, State.ticked_channel_self, hk]
    rfl
  have running : ((s.ticked c k).channel c).state ≠ .faulted := by rwa [State.ticked_channel_self]
  have mode : ((s.ticked c k).channel c).faultMode = (s.channel c).faultMode := by rw [State.ticked_channel_self]
  rcases hm with hm | hm
  · rw [State.enterFault_latch running (mode.trans hm), State.enterFault_latch hf hm, handed]
    simp only [State.ticked_channel_self]
    simp only [State.ticked, State.setChannel_setChannel]
    rfl
  · rw [State.enterFault_retry running (mode.trans hm), State.enterFault_retry hf hm, handed]
    simp only [State.ticked_channel_self]
    simp only [State.ticked, State.setChannel_setChannel]
    rfl

theorem State.slotWork_still (h : running = true → (s.channel c).state ≠ .busy) : s.slotWork c running = s :=
  if_neg fun ⟨hr, hb⟩ => h hr hb

section
variable (hb : (s.channel c).state = .busy)
include hb

theorem State.slotWork_empty (hk : (s.channel c).command = none) : s.slotWork c true = s := by
  rw [State.slotWork, if_pos ⟨rfl, hb⟩, hk]

variable (hk : (s.channel c).command = some k)
include hk

theorem State.slotWork_command : s.slotWork c true =
    if k.tick.dwellReached then (s.ticked c k).endCommand c .done
    else if k.tick.timeoutReached then (s.ticked c k).timeOut c else s.ticked c k := by
  rw [State.slotWork, if_pos ⟨rfl, hb⟩, hk]
  rfl

/-- Neither the dwell nor the answer timeout is reached. -/
theorem State.slotWork_counts (hd : k.mode ≠ .answer → k.busy + 1 < k.dwell) (ha : k.mode = .answer → k.busy + 1 < k.answerTimeout) :
    s.slotWork c true = s.ticked c k := by
  rw [State.slotWork_command hb hk, if_neg, if_neg]
  · rw [Command.timeoutReached_tick]
    exact fun ⟨hm, h⟩ => Nat.not_le.mpr (ha hm) h
  · rw [Command.dwellReached_tick]
    exact fun ⟨hm, h⟩ => Nat.not_le.mpr (hd hm) h

theorem State.slotWork_dwell (hm : k.mode ≠ .answer) (h : k.dwell ≤ k.busy + 1) :
    s.slotWork c true = (s.commandEnded c k .done).grant c := by
  rw [State.slotWork_command hb hk, if_pos (Command.dwellReached_tick.mpr ⟨hm, h⟩), State.ticked_endCommand]

section
variable (hm : k.mode = .answer) (h : k.answerTimeout ≤ k.busy + 1)
include hm h

theorem State.slotWork_timeOut : s.slotWork c true = (s.ticked c k).timeOut c := by
  rw [State.slotWork_command hb hk, if_neg, if_pos (Command.timeoutReached_tick.mpr ⟨hm, h⟩)]
  rw [Command.dwellReached_tick]
  exact fun ⟨hn, _⟩ => hn hm

/-- A timeout in LATCH and RETRY is the fault entry alone (R124). -/
theorem State.slotWork_stops (hf : (s.channel c).faultMode = .latch ∨ (s.channel c).faultMode = .retry) :
    s.slotWork c true = s.enterFault c .timeout := by
  have ends : ((s.ticked c k).channel c).faultMode.endsCommand = true := by
    rw [State.ticked_channel_self]
    rcases hf with hf | hf <;> (simp only [hf]; rfl)
  rw [State.slotWork_timeOut hb hk hm h, State.timeOut, if_pos ends, State.ticked_enterFault (by rw [hb]; nofun) hk hf]

/-- A timeout in REPORT and IGNORE is a fault entered after the end of the command (R124). -/
theorem State.slotWork_goesOn (hf : (s.channel c).faultMode = .report ∨ (s.channel c).faultMode = .ignore) :
    s.slotWork c true = ((s.commandEnded c k (.failed .timeout)).grant c).enterFault c .timeout := by
  have goes : ¬((s.ticked c k).channel c).faultMode.endsCommand = true := by
    rw [State.ticked_channel_self]
    rcases hf with hf | hf <;> (simp only [hf]; exact Bool.false_ne_true)
  rw [State.slotWork_timeOut hb hk hm h, State.timeOut, if_neg goes, State.ticked_endCommand]

end
end

/-! ### What grants leave of the channel's own record -/

theorem ChannelState.counted_iff {st : ChannelState} : st.counted = true ↔ st = .ready ∨ st = .busy ∨ st = .guard := by
  cases st <;> simp [ChannelState.counted]

/-- A channel in service stays in service. -/
theorem State.Granted.counted (h : State.Granted c s u) (hs : (s.channel c).state.counted = true) :
    (u.channel c).state.counted = true := by
  induction h with
  | none _ => exact hs
  | runs _ _ _ sent => rw [sent.channel]; rfl
  | done _ _ _ _ _ _ ih =>
    refine ih ?_
    rw [State.commandEnded_channel_self]
    dsimp only
    split <;> rfl

/-- A grant does not touch the silent count. -/
theorem State.Granted.silent (h : State.Granted c s u) : (u.channel c).silent = (s.channel c).silent := by
  induction h with
  | none _ => rfl
  | runs _ _ _ sent => rw [sent.channel]
  | done _ _ _ sent _ _ ih => rw [ih, State.commandEnded_channel_self, sent.channel]

theorem State.commandEnded_counted (s : State) (c : Chan) (k : Command) (o : CueOutcome) :
    ((s.commandEnded c k o).channel c).state.counted = true := by
  rw [State.commandEnded_channel_self]
  dsimp only
  split <;> rfl

/-- The command's end leaves a channel that is not FAULTED, whatever is sent after it. -/
theorem State.commandEnded_grant_state (s : State) (c : Chan) (k : Command) (o : CueOutcome) :
    (((s.commandEnded c k o).grant c).channel c).state ≠ .faulted := fun h => by
  have counted := (State.granted_grant _ c).counted (s.commandEnded_counted c k o)
  rw [h] at counted
  cases counted

theorem State.slotCounted_slotWork (hb : (s.channel c).state = .busy) : s.SlotCounted (s.slotWork c true) c where
  empty := fun hk => State.slotWork_empty hb hk
  counts := fun k hk hd ha => State.slotWork_counts hb hk hd ha
  dwell := fun k hk hm h => by
    rw [State.slotWork_dwell hb hk hm h]
    exact s.endsCommand_grant c k .done
  stops := fun k hk hm h hf => by
    rw [State.slotWork_stops hb hk hm h hf]
    exact State.faultEntered_enterFault (by rw [hb]; nofun) .timeout
  goesOn := fun k hk hm h hf => by
    rw [State.slotWork_goesOn hb hk hm h hf]
    exact ⟨_, s.endsCommand_grant c k (.failed .timeout),
      State.faultEntered_enterFault (s.commandEnded_grant_state c k (.failed .timeout)) .timeout⟩

/-! ### Steps 3 to 5: the guard, the recovery and the grant (R122, R131) -/

theorem State.guardWork_still (h : running = true → (s.channel c).state ≠ .guard) : s.guardWork c running = s :=
  if_neg fun ⟨hr, hg⟩ => h hr hg

theorem State.guardWork_counts (h : (s.channel c).state = .guard) : s.guardWork c true = s.setChannel c { s.channel c with
    guard := (s.channel c).guard - 1, state := if (s.channel c).guard ≤ 1 then .ready else .guard } := if_pos ⟨rfl, h⟩

theorem State.recoveryWork_still (h : running = true → (s.channel c).state ≠ .recovering) : s.recoveryWork c running = s :=
  if_neg fun ⟨hr, hg⟩ => h hr hg

theorem State.recoveryWork_counts (h : (s.channel c).state = .recovering) :
    s.recoveryWork c true = s.setChannel c { s.channel c with
      recovery := (s.channel c).recovery - 1, state := if (s.channel c).recovery ≤ 1 then .ready else .recovering } :=
  if_pos ⟨rfl, h⟩

/-- The state after step 1 of a channel's frame work. -/
def State.afterAgeing (s : State) (c : Chan) : State := (s.beginWork c).ageQueue c

theorem State.afterAgeing_channel_self (s : State) (c : Chan) : (s.afterAgeing c).channel c = { s.channel c with
    begun := false, queue := (s.channel c).queue.filter (fun q => decide (frameDiff s.sfc q.fire ≤ q.tolerance)) } := by
  rw [State.afterAgeing, State.ageQueue_channel_self, State.beginWork_channel_self]
  rfl

theorem State.afterAgeing_fresh (h : ∀ q ∈ (s.channel c).queue, frameDiff s.sfc q.fire ≤ q.tolerance) :
    s.afterAgeing c = s.beginWork c := State.ageQueue_fresh (by rw [State.beginWork_channel_self]; exact h)

/-- Step 2 counts nothing that did not run when the frame event was made. -/
theorem State.afterSlotWork_still (h : ¬((s.channel c).state = .busy ∧ (s.channel c).begun = false)) :
    s.afterSlotWork c = s.afterAgeing c :=
  State.slotWork_still fun running => absurd (Channel.counting_iff.mp running) h

theorem State.afterSlotWork_busy (hb : (s.channel c).state = .busy) (hm : (s.channel c).begun = false) :
    s.afterSlotWork c = (s.afterAgeing c).slotWork c true :=
  congrArg ((s.afterAgeing c).slotWork c) (Channel.counting_iff.mpr ⟨hb, hm⟩)

/-- The state after steps 1 to 4 of a channel's frame work. -/
def State.afterCounts (s : State) (c : Chan) : State :=
  ((s.afterSlotWork c).guardWork c ((s.channel c).counting .guard)).recoveryWork c ((s.channel c).counting .recovering)

theorem State.afterCounts_still (hg : ¬((s.channel c).state = .guard ∧ (s.channel c).begun = false))
    (hr : ¬((s.channel c).state = .recovering ∧ (s.channel c).begun = false)) : s.afterCounts c = s.afterSlotWork c := by
  rw [State.afterCounts, State.guardWork_still fun running => absurd (Channel.counting_iff.mp running) hg,
    State.recoveryWork_still fun running => absurd (Channel.counting_iff.mp running) hr]

theorem State.afterCounts_guard (hg : (s.channel c).state = .guard) (hm : (s.channel c).begun = false) :
    s.afterCounts c = (s.afterAgeing c).setChannel c { (s.afterAgeing c).channel c with
      guard := (s.channel c).guard - 1, state := if (s.channel c).guard ≤ 1 then .ready else .guard } := by
  have guard : ((s.afterAgeing c).channel c).state = .guard := by rw [State.afterAgeing_channel_self]; exact hg
  have count : ((s.afterAgeing c).channel c).guard = (s.channel c).guard := by rw [State.afterAgeing_channel_self]
  rw [State.afterCounts, State.recoveryWork_still fun running => ?_, Channel.counting_iff.mpr ⟨hg, hm⟩,
    State.afterSlotWork_still (by rw [hg]; nofun), State.guardWork_counts guard, count]
  rw [Channel.counting_iff, hg] at running
  exact nomatch running.1

theorem State.afterCounts_recovering (hr : (s.channel c).state = .recovering) (hm : (s.channel c).begun = false) :
    s.afterCounts c = (s.afterAgeing c).setChannel c { (s.afterAgeing c).channel c with
      recovery := (s.channel c).recovery - 1, state := if (s.channel c).recovery ≤ 1 then .ready else .recovering } := by
  have recovering : ((s.afterAgeing c).channel c).state = .recovering := by rw [State.afterAgeing_channel_self]; exact hr
  have count : ((s.afterAgeing c).channel c).recovery = (s.channel c).recovery := by rw [State.afterAgeing_channel_self]
  rw [State.afterCounts, State.guardWork_still fun running => ?_, Channel.counting_iff.mpr ⟨hr, hm⟩,
    State.afterSlotWork_still (by rw [hr]; nofun), State.recoveryWork_counts recovering, count]
  rw [Channel.counting_iff, hr] at running
  exact nomatch running.1

/-! ### Steps 6 and 7: silence and polls (R127, R128) -/

theorem Channel.nextSilent_eq (x : Channel) : x.nextSilent = min 1023 (x.silent + 1) := by
  rw [Channel.nextSilent]
  split <;> omega

theorem Channel.fallsSilent_iff : x.fallsSilent = true ↔
    x.state.counted = true ∧ x.silentLimit ≠ 0 ∧ x.silentLimit ≤ min 1023 (x.silent + 1) := by
  rw [Channel.fallsSilent, Channel.nextSilent_eq]
  simp [and_assoc]

theorem Channel.pollsNow_iff : x.pollsNow = true ↔ x.state = .ready ∧ x.pollInterval ≠ 0 ∧ x.pollInterval ≤ x.poll + 1 := by
  simp [Channel.pollsNow, and_assoc]

theorem State.silenceWork_uncounted (h : (s.channel c).state.counted = false) : s.silenceWork c = s :=
  if_neg (by rw [h]; nofun)

theorem State.silenceWork_counts (h : (s.channel c).state.counted = true)
    (hl : (s.channel c).silentLimit = 0 ∨ min 1023 ((s.channel c).silent + 1) < (s.channel c).silentLimit) :
    s.silenceWork c = s.setChannel c { s.channel c with silent := min 1023 ((s.channel c).silent + 1) } := by
  have heard : ¬(s.channel c).fallsSilent = true := by
    rw [Channel.fallsSilent_iff]
    omega
  rw [State.silenceWork, if_pos h, if_neg heard, Channel.nextSilent_eq]

/-- A fault entry does not depend on the silent count. -/
theorem State.enterFault_setSilent (hf : (s.channel c).state ≠ .faulted) (n : Nat) (cause : FaultCause) :
    (s.setChannel c { s.channel c with silent := n }).enterFault c cause = s.enterFault c cause := by
  have noted : (s.setChannel c { s.channel c with silent := n }).noteFault c cause = s.noteFault c cause := by
    simp only [State.noteFault, State.setChannel_channel_self, State.setChannel_setChannel]
  simp only [State.enterFault, State.setChannel_channel_self, if_neg hf, noted]
  rfl

theorem State.silenceWork_faults (h : (s.channel c).fallsSilent = true) : s.silenceWork c = s.enterFault c .silent := by
  have counted := (Channel.fallsSilent_iff.mp h).1
  have running : (s.channel c).state ≠ .faulted := fun e => by rw [e] at counted; cases counted
  rw [State.silenceWork, if_pos counted, if_pos h, State.enterFault_setSilent running]

theorem State.silenceCounted_silenceWork (s : State) (c : Chan) : s.SilenceCounted (s.silenceWork c) c where
  uncounted := fun hr hb hg => State.silenceWork_uncounted (Bool.eq_false_of_not_eq_true fun h =>
    (ChannelState.counted_iff.mp h).elim hr fun h => h.elim hb hg)
  counts := fun h hl => State.silenceWork_counts (ChannelState.counted_iff.mpr h) hl
  faults := fun h h0 hl => by
    rw [State.silenceWork_faults (Channel.fallsSilent_iff.mpr ⟨ChannelState.counted_iff.mpr h, h0, hl⟩)]
    refine State.faultEntered_enterFault (fun e => ?_) .silent
    rw [e] at h
    simp at h

theorem State.pollWork_none (h : (s.channel c).state ≠ .ready ∨ (s.channel c).pollInterval = 0) : s.pollWork c = s := by
  rw [State.pollWork, if_neg, if_neg]
  · exact fun ⟨hr, h0⟩ => h.elim (· hr) h0
  · rw [Channel.pollsNow_iff]
    exact fun ⟨hr, h0, _⟩ => h.elim (· hr) h0

theorem State.pollWork_polls (h : (s.channel c).pollsNow = true) :
    s.pollWork c = (s.setChannel c { s.channel c with poll := 0 }).emit (.device c) .poll := if_pos h

theorem State.pollCounted_pollWork (s : State) (c : Chan) : s.PollCounted (s.pollWork c) c where
  none := State.pollWork_none
  counts := fun hr h => by
    rw [State.pollWork, if_neg, if_pos ⟨hr, by omega⟩]
    rw [Channel.pollsNow_iff]
    omega
  polls := fun hr h0 h => State.pollWork_polls (Channel.pollsNow_iff.mpr ⟨hr, h0, h⟩)

/-! ### The whole work (R122) -/

theorem ChannelState.works_iff {st : ChannelState} : st.works = true ↔ st ≠ .offline ∧ st ≠ .faulted := by
  cases st <;> simp [ChannelState.works]

theorem State.channelWork_works (h : (s.channel c).state.works = true) :
    s.channelWork c = ((s.afterGrantWork c).silenceWork c).pollWork c := by
  rw [State.channelWork]
  cases hs : (s.channel c).state with
  | offline => rw [hs] at h; cases h
  | faulted => rw [hs] at h; cases h
  | ready => rfl
  | busy => rfl
  | guard => rfl
  | recovering => rfl

theorem State.channelWork_faulted (h : (s.channel c).state = .faulted) : s.channelWork c = s.afterAgeing c := by
  rw [State.channelWork, h]
  rfl

/-- A channel's frame work is its seven steps in their order. -/
theorem State.channelWorked_channelWork (s : State) (c : Chan) : s.ChannelWorked (s.channelWork c) c := by
  by_cases offline : (s.channel c).state = .offline
  · refine .offline offline ?_
    rw [State.channelWork, offline]
    rfl
  · by_cases faulted : (s.channel c).state = .faulted
    · refine .faulted faulted ?_
      rw [State.channelWork_faulted faulted]
      exact State.queueAged_ageQueue _ c
    · rw [State.channelWork_works (ChannelState.works_iff.mpr ⟨offline, faulted⟩)]
      refine .works (s.afterAgeing c) (s.afterSlotWork c) (s.afterCounts c) (s.afterGrantWork c) _ ⟨offline, faulted⟩
        (State.queueAged_ageQueue _ c) ?slot ?counts (State.granted_grant _ c) (State.silenceCounted_silenceWork _ c)
        (State.pollCounted_pollWork _ c)
      case slot =>
        split
        · next h =>
          rw [State.afterSlotWork_busy h.1 h.2]
          exact State.slotCounted_slotWork (by rw [State.afterAgeing_channel_self]; exact h.1)
        · next h => exact State.afterSlotWork_still h
      case counts =>
        split
        · next hm => exact State.afterCounts_still (by rw [hm]; nofun) (by rw [hm]; nofun)
        · next hm =>
          have unmarked := Bool.eq_false_of_not_eq_true hm
          split
          · next hg => rw [State.afterCounts_guard hg unmarked, State.afterSlotWork_still (by rw [hg]; nofun)]
          · next hg =>
            split
            · next hr => rw [State.afterCounts_recovering hr unmarked, State.afterSlotWork_still (by rw [hr]; nofun)]
            · next hr => exact State.afterCounts_still (fun h => hg h.1) (fun h => hr h.1)

end Sys2Proof.Machine
end

section
/-! SUPPORT. The rows of the table that do a channel's frame work, when each occurs, and the work of a channel with nothing to age or to
count (R122, R124, R127, R128). -/

namespace Sys2Proof.Machine

variable {s : State} {c : Chan} {k : Command} {x : Channel}

/-! ### The rows at a part out of reset -/

section
variable (hh : s.held = false) (c : Chan)
include hh

theorem exec_cueAgedLate : exec (.cueAgedLate c) s = .next (s.workWhen (.channel c) (State.agesOut c)) :=
  congrArg Host.Outcome.next (State.unlessHeld_free hh _)

theorem exec_dwellExpiry : exec (.dwellExpiry c) s = .next (s.workWhen (.channel c) (State.dwellEnds c)) :=
  congrArg Host.Outcome.next (State.unlessHeld_free hh _)

theorem exec_answerTimeout : exec (.answerTimeout c) s = .next (s.workWhen (.channel c) (State.timeoutFalls c)) :=
  congrArg Host.Outcome.next (State.unlessHeld_free hh _)

theorem exec_guardExpiry : exec (.guardExpiry c) s = .next (s.workWhen (.channel c) (State.guardEnds c)) :=
  congrArg Host.Outcome.next (State.unlessHeld_free hh _)

theorem exec_recoveryExpiry : exec (.recoveryExpiry c) s = .next (s.workWhen (.channel c) (State.recoveryEnds c)) :=
  congrArg Host.Outcome.next (State.unlessHeld_free hh _)

theorem exec_silentFault : exec (.silentFault c) s = .next (s.workWhen (.channel c) (State.silenceFalls c)) :=
  congrArg Host.Outcome.next (State.unlessHeld_free hh _)

theorem exec_poll : exec (.poll c) s = .next (s.workWhen (.channel c) (State.pollFalls c)) :=
  congrArg Host.Outcome.next (State.unlessHeld_free hh _)

end

/-- The state in which a channel's frame work is no longer outstanding. -/
def State.channelTaken (s : State) (c : Chan) : State := s.setDue (s.due.erase (.channel c))

@[simp] theorem State.channelTaken_channel (s : State) (c d : Chan) : (s.channelTaken c).channel d = s.channel d := rfl

theorem State.workWhen_channel {occurs : State → Bool} (hd : .channel c ∈ s.due) (h : occurs (s.channelTaken c) = true) :
    s.workWhen (.channel c) occurs = (s.channelTaken c).channelWork c := State.workWhen_due hd h

theorem State.workWhen_channel_not {occurs : State → Bool} (h : ¬occurs (s.channelTaken c) = true) :
    s.workWhen (.channel c) occurs = s := State.workWhen_not (Bool.eq_false_of_not_eq_true h)

/-! ### A row does the whole of the frame work, or nothing -/

section
variable {i : Instr} {occurs : State → Bool} (he : exec i s = .next (s.workWhen (.channel c) occurs))
include he

theorem exec_row_occurs (hd : .channel c ∈ s.due) (h : occurs (s.channelTaken c) = true) :
    exec i s = .next ((s.channelTaken c).channelWork c) := by
  rw [he, State.workWhen_channel hd h]

theorem exec_row_waits (h : ¬occurs (s.channelTaken c) = true) : exec i s = .next s := by
  rw [he, State.workWhen_channel_not h]

theorem exec_row_cases (hd : .channel c ∈ s.due) :
    exec i s = .next s ∨ ∃ u, exec i s = .next u ∧ (s.channelTaken c).ChannelWorked u c := by
  by_cases h : occurs (s.channelTaken c) = true
  · exact .inr ⟨_, exec_row_occurs he hd h, State.channelWorked_channelWork _ c⟩
  · exact .inl (exec_row_waits he h)

end

/-! ### When each row occurs -/

/-- The command whose count is advanced, where the count runs. -/
theorem Channel.ticking_busy (hb : x.state = .busy) (hk : x.command = some k) :
    x.ticking = if x.begun then none else some k.tick := by
  rw [Channel.ticking, Channel.counting, hb, hk]
  cases x.begun <;> rfl

theorem State.dwellEnds_iff (hb : (s.channel c).state = .busy) (hk : (s.channel c).command = some k) :
    s.dwellEnds c = true ↔ (s.channel c).begun = false ∧ k.mode ≠ .answer ∧ k.dwell ≤ k.busy + 1 := by
  rw [State.dwellEnds, Channel.ticking_busy hb hk, ← Command.dwellReached_tick]
  cases (s.channel c).begun <;> simp

theorem State.timeoutFalls_iff (hb : (s.channel c).state = .busy) (hk : (s.channel c).command = some k) :
    s.timeoutFalls c = true ↔ (s.channel c).begun = false ∧ k.mode = .answer ∧ k.answerTimeout ≤ k.busy + 1 := by
  rw [State.timeoutFalls, Channel.ticking_busy hb hk, ← Command.timeoutReached_tick]
  cases (s.channel c).begun <;> simp

theorem State.guardEnds_iff :
    s.guardEnds c = true ↔ ((s.channel c).state = .guard ∧ (s.channel c).begun = false) ∧ (s.channel c).guard ≤ 1 := by
  rw [State.guardEnds, Bool.and_eq_true, Channel.counting_iff, decide_eq_true_eq]

theorem State.recoveryEnds_iff :
    s.recoveryEnds c = true ↔ ((s.channel c).state = .recovering ∧ (s.channel c).begun = false) ∧ (s.channel c).recovery ≤ 1 := by
  rw [State.recoveryEnds, Bool.and_eq_true, Channel.counting_iff, decide_eq_true_eq]

theorem State.agesOut_iff : s.agesOut c = true ↔
    (s.channel c).state ≠ .offline ∧ ∃ q ∈ (s.channel c).queue, (q.tolerance : Int) < frameDiff s.sfc q.fire := by
  simp only [State.agesOut, Bool.and_eq_true, decide_eq_true_eq, List.any_eq_true, State.agedOut_iff]

theorem State.silenceFalls_iff : s.silenceFalls c = true ↔
    (s.channel c).state.works = true ∧ ((s.afterGrantWork c).channel c).fallsSilent = true := Bool.and_eq_true_iff

theorem State.pollFalls_iff : s.pollFalls c = true ↔
    (s.channel c).state.works = true ∧ (((s.afterGrantWork c).silenceWork c).channel c).pollsNow = true := Bool.and_eq_true_iff

/-! ### The steps where nothing is counted, aged or granted -/

theorem State.afterGrantWork_eq (s : State) (c : Chan) : s.afterGrantWork c = (s.afterCounts c).grant c := rfl

/-- A marked count is not counted, nor is anything in READY; with nothing late and nothing to grant the mark alone goes. -/
theorem State.afterGrantWork_still (h : (s.channel c).begun = true ∨ (s.channel c).state = .ready)
    (hf : ∀ q ∈ (s.channel c).queue, frameDiff s.sfc q.fire ≤ q.tolerance)
    (hi : (s.channel c).state = .ready → (s.channel c).queue = []) : s.afterGrantWork c = s.beginWork c := by
  have still (st : ChannelState) (hst : st ≠ .ready) : ¬((s.channel c).state = st ∧ (s.channel c).begun = false) := by
    rintro ⟨hs, hm⟩
    exact h.elim (fun marked => Bool.false_ne_true (hm.symm.trans marked)) fun ready => hst (hs.symm.trans ready)
  rw [State.afterGrantWork_eq, State.afterCounts_still (still _ nofun) (still _ nofun), State.afterSlotWork_still (still _ nofun),
    State.afterAgeing_fresh hf]
  exact State.grant_idle (by rw [State.beginWork_channel_self]; exact hi)

theorem State.silenceWork_pollWork_counts (h : (s.channel c).state.counted = true)
    (hl : (s.channel c).silentLimit = 0 ∨ min 1023 ((s.channel c).silent + 1) < (s.channel c).silentLimit)
    (hp : (s.channel c).pollInterval = 0) : (s.silenceWork c).pollWork c =
      s.setChannel c { s.channel c with silent := min 1023 ((s.channel c).silent + 1) } := by
  rw [State.silenceWork_counts h hl, State.pollWork_none (.inr (by rw [State.setChannel_channel_self]; exact hp))]

theorem State.silenceWork_pollWork_uncounted (h : (s.channel c).state.counted = false) : (s.silenceWork c).pollWork c = s := by
  rw [State.silenceWork_uncounted h, State.pollWork_none (.inl fun ready => by rw [ready] at h; cases h)]

theorem ChannelState.works_of_counted {st : ChannelState} (h : st.counted = true) : st.works = true := by
  rcases ChannelState.counted_iff.mp h with rfl | rfl | rfl <;> rfl

/-- The mark goes and the silence is counted, where no other count runs and neither a silence fault nor a POLL is to come. -/
theorem State.channelWork_still_counts (h : (s.channel c).begun = true ∨ (s.channel c).state = .ready)
    (hf : ∀ q ∈ (s.channel c).queue, frameDiff s.sfc q.fire ≤ q.tolerance)
    (hi : (s.channel c).state = .ready → (s.channel c).queue = []) (hs : (s.channel c).state.counted = true)
    (hl : (s.channel c).silentLimit = 0 ∨ min 1023 ((s.channel c).silent + 1) < (s.channel c).silentLimit)
    (hp : (s.channel c).pollInterval = 0) :
    s.channelWork c = s.setChannel c { s.channel c with begun := false, silent := min 1023 ((s.channel c).silent + 1) } := by
  have record := s.beginWork_channel_self c
  rw [State.channelWork_works (ChannelState.works_of_counted hs), State.afterGrantWork_still h hf hi,
    State.silenceWork_pollWork_counts (by rw [record]; exact hs) (by rw [record]; exact hl) (by rw [record]; exact hp), record,
    State.beginWork, State.setChannel_setChannel]

end Sys2Proof.Machine
end

section
/-! PROOFS. The dwell and the answer timeout of a command, and the whole of the frame work of a channel with nothing queued and neither a
silence fault nor a POLL to come (R122, R124, R125, R129). -/

namespace Sys2Proof.Machine

variable {s : State} {c : Chan} {k : Command} {o : CueOutcome}

/-- Nothing is queued, and neither a silence fault nor a POLL is to come at the next frame work. -/
structure Channel.Quiet (x : Channel) : Prop where
  queue : x.queue = []
  silence : x.silentLimit = 0 ∨ (x.silent + 1 < x.silentLimit ∧ 1 < x.silentLimit ∧ x.silent < 1023)
  poll : x.pollInterval = 0

theorem Channel.Quiet.fresh {x : Channel} (h : x.Quiet) {now : Frame} : ∀ q ∈ x.queue, frameDiff now q.fire ≤ q.tolerance := by
  rw [h.queue]
  nofun

theorem Channel.Quiet.limit {x : Channel} (h : x.Quiet) : x.silentLimit = 0 ∨ min 1023 (x.silent + 1) < x.silentLimit :=
  h.silence.imp_right fun ⟨hl, _, _⟩ => lt_of_le_of_lt (min_le_right _ _) hl

theorem State.commandEnded_setChannel (s : State) (c : Chan) (k : Command) (o : CueOutcome) (y : Channel) :
    (s.commandEnded c k o).setChannel c y = (s.setChannel c y).setCuesDone (s.cuesDone ++ [⟨k.cue, o⟩]) := by
  rw [State.commandEnded, State.setCuesDone_setChannel, State.setChannel_setChannel]

section
variable (hb : (s.channel c).state = .busy) (hs : (s.channel c).Quiet)
include hb hs

theorem State.channelWork_busy_marked (hm : (s.channel c).begun = true) : s.channelWork c =
    s.setChannel c { s.channel c with begun := false, silent := min 1023 ((s.channel c).silent + 1) } :=
  State.channelWork_still_counts (.inl hm) hs.fresh (fun _ => hs.queue) (by rw [hb]; rfl) hs.limit hs.poll

variable (hm : (s.channel c).begun = false)
include hm

theorem State.channelWork_busy : s.channelWork c = (((s.slotWork c true).grant c).silenceWork c).pollWork c := by
  rw [State.channelWork_works (by rw [hb]; rfl), State.afterGrantWork_eq,
    State.afterCounts_still (by rw [hb]; nofun) (by rw [hb]; nofun), State.afterSlotWork_busy hb hm,
    State.afterAgeing_fresh hs.fresh, State.beginWork_unmarked hm]

variable (hk : (s.channel c).command = some k)
include hk

theorem State.channelWork_counts (hd : k.mode ≠ .answer → k.busy + 1 < k.dwell)
    (ha : k.mode = .answer → k.busy + 1 < k.answerTimeout) : s.channelWork c = s.setChannel c { s.channel c with
      command := some { k with busy := k.busy + 1 }, silent := min 1023 ((s.channel c).silent + 1) } := by
  have busy : ((s.ticked c k).channel c).state = .busy := by rw [State.ticked_channel_self]; exact hb
  rw [State.channelWork_busy hb hs hm, State.slotWork_counts hb hk hd ha,
    State.grant_idle fun ready => absurd (busy.symm.trans ready) nofun,
    State.silenceWork_pollWork_counts (by rw [busy]; rfl) (by rw [State.ticked_channel_self]; exact hs.limit)
      (by rw [State.ticked_channel_self]; exact hs.poll), State.ticked_channel_self, State.ticked, State.setChannel_setChannel]
  rfl

theorem State.channelWork_dwell (hn : k.mode ≠ .answer) (h : k.dwell ≤ k.busy + 1) : s.channelWork c =
    (s.commandEnded c k .done).setChannel c
      { (s.commandEnded c k .done).channel c with silent := min 1023 ((s.channel c).silent + 1) } := by
  have idle := State.commandEnded_grant (s := s) (c := c) (k := k) (.inr hs.queue) .done
  rw [State.channelWork_busy hb hs hm, State.slotWork_dwell hb hk hn h, idle, idle,
    State.silenceWork_pollWork_counts (s.commandEnded_counted c k .done)
      (by rw [State.commandEnded_channel_self]; exact hs.limit) (by rw [State.commandEnded_channel_self]; exact hs.poll),
    State.commandEnded_channel_self]

variable (hn : k.mode = .answer) (h : k.answerTimeout ≤ k.busy + 1)
include hn h

theorem State.channelWork_latches (hf : (s.channel c).faultMode = .latch) : s.channelWork c =
    ((s.setChannel c { (s.channel c).stopped .timeout with state := .faulted }).setCuesDone
      (s.cuesDone ++ [⟨k.cue, .failed .timeout⟩])).raise .channelFault := by
  generalize hu : ((s.setChannel c { (s.channel c).stopped .timeout with state := .faulted }).setCuesDone
    (s.cuesDone ++ [⟨k.cue, .failed .timeout⟩])).raise .channelFault = u
  have faulted : (u.channel c).state = .faulted := by
    rw [← hu, State.raise_channel, State.setCuesDone_channel, State.setChannel_channel_self]
  have entered : s.enterFault c .timeout = u := by
    have empty : { (s.channel c).stopped .timeout with state := .faulted, queue := [] } =
        { (s.channel c).stopped .timeout with state := .faulted } := by rw [← hs.queue]; rfl
    rw [State.enterFault_latch (by rw [hb]; nofun) hf, empty, hs.queue, Channel.handed, hk, ← hu]
    rfl
  rw [State.channelWork_busy hb hs hm, State.slotWork_stops hb hk hn h (.inl hf), entered,
    State.grant_idle fun ready => absurd (faulted.symm.trans ready) nofun,
    State.silenceWork_pollWork_uncounted (by rw [faulted]; rfl)]

theorem State.channelWork_retries (hf : (s.channel c).faultMode = .retry) : s.channelWork c =
    ((s.setChannel c { (s.channel c).stopped .timeout with
      state := .recovering, recovery := (s.channel c).retryInterval, begun := s.beginsEarly c }).setCuesDone
        (s.cuesDone ++ [⟨k.cue, .failed .timeout⟩])).raise .channelFault := by
  generalize hu : ((s.setChannel c { (s.channel c).stopped .timeout with
    state := .recovering, recovery := (s.channel c).retryInterval, begun := s.beginsEarly c }).setCuesDone
      (s.cuesDone ++ [⟨k.cue, .failed .timeout⟩])).raise .channelFault = u
  have recovering : (u.channel c).state = .recovering := by
    rw [← hu, State.raise_channel, State.setCuesDone_channel, State.setChannel_channel_self]
  have entered : s.enterFault c .timeout = u := by
    rw [State.enterFault_retry (by rw [hb]; nofun) hf, Channel.handed, hk, ← hu]
    rfl
  rw [State.channelWork_busy hb hs hm, State.slotWork_stops hb hk hn h (.inr hf), entered,
    State.grant_idle fun ready => absurd (recovering.symm.trans ready) nofun,
    State.silenceWork_pollWork_uncounted (by rw [recovering]; rfl)]

/-- In REPORT and IGNORE the fault is entered after the end of the command: the steps that are left find the channel in service, its silent
count at 0. -/
theorem State.channelWork_goesOn (hf : (s.channel c).faultMode = .report ∨ (s.channel c).faultMode = .ignore) {e : State}
    (he : (s.commandEnded c k (.failed .timeout)).enterFault c .timeout = e)
    (hc : ∃ flag cause, e.channel c = { (s.commandEnded c k (.failed .timeout)).channel c with
      silent := 0, faultFlag := flag, faultCause := cause }) :
    s.channelWork c = e.setChannel c { e.channel c with silent := 1 } := by
  obtain ⟨flag, cause, record⟩ := hc
  have idle := State.commandEnded_grant (s := s) (c := c) (k := k) (.inr hs.queue) (.failed .timeout)
  have counted : (e.channel c).state.counted = true := by
    rw [record]
    exact s.commandEnded_counted c k (.failed .timeout)
  have queue : (e.channel c).queue = [] := by rw [record, State.commandEnded_channel_self]; exact hs.queue
  have silent : (e.channel c).silent = 0 := by rw [record]
  have limit : (e.channel c).silentLimit = (s.channel c).silentLimit := by rw [record, State.commandEnded_channel_self]
  have poll : (e.channel c).pollInterval = 0 := by rw [record, State.commandEnded_channel_self]; exact hs.poll
  rw [State.channelWork_busy hb hs hm, State.slotWork_goesOn hb hk hn h hf, idle, he, State.grant_idle fun _ => queue,
    State.silenceWork_pollWork_counts counted ?_ poll, silent]
  · rfl
  · rw [silent, limit]
    exact hs.silence.imp_right fun ⟨_, hl, _⟩ => hl

theorem State.channelWork_reports (hf : (s.channel c).faultMode = .report) : s.channelWork c =
    ((s.commandEnded c k (.failed .timeout)).setChannel c { (s.commandEnded c k (.failed .timeout)).channel c with
      silent := 1, faultFlag := true, faultCause := some .timeout }).raise .channelFault := by
  have mode : ((s.commandEnded c k (.failed .timeout)).channel c).faultMode = .report := by
    rw [State.commandEnded_channel_self]; exact hf
  have running : ((s.commandEnded c k (.failed .timeout)).channel c).state ≠ .faulted := fun e => by
    have counted := s.commandEnded_counted c k (.failed .timeout)
    rw [e] at counted
    cases counted
  rw [State.channelWork_goesOn hb hs hm hk hn h (.inl hf) (State.enterFault_report running mode .timeout)
    ⟨true, some .timeout, by rw [State.raise_channel, State.setChannel_channel_self]⟩, State.raise_channel,
    State.setChannel_channel_self, State.raise_setChannel, State.setChannel_setChannel]

theorem State.channelWork_ignores (hf : (s.channel c).faultMode = .ignore) : s.channelWork c =
    (s.commandEnded c k (.failed .timeout)).setChannel c
      { (s.commandEnded c k (.failed .timeout)).channel c with silent := 1 } := by
  have mode : ((s.commandEnded c k (.failed .timeout)).channel c).faultMode = .ignore := by
    rw [State.commandEnded_channel_self]; exact hf
  have running : ((s.commandEnded c k (.failed .timeout)).channel c).state ≠ .faulted := fun e => by
    have counted := s.commandEnded_counted c k (.failed .timeout)
    rw [e] at counted
    cases counted
  rw [State.channelWork_goesOn hb hs hm hk hn h (.inr hf) (State.enterFault_ignore running mode .timeout)
    ⟨_, _, by rw [State.setChannel_channel_self]⟩, State.setChannel_channel_self, State.setChannel_setChannel]

end

end Sys2Proof.Machine

namespace Sys2Proof

open Sys2Proof.Machine

/-- Settles O50: each row occurs just where the advanced count reaches its limit, and does the seven steps; for a quiet channel these are
the end of the command by its mode and the fault mode, and the silent count. -/
theorem commandTimersEndTheCommand : Obligations.CommandTimersEndTheCommand := by
  rintro s c x k hh hd rfl hb hk
  have dwell : State.dwellEnds c (s.channelTaken c) = true ↔ _ := State.dwellEnds_iff (s := s.channelTaken c) hb hk
  have timeout : State.timeoutFalls c (s.channelTaken c) = true ↔ _ := State.timeoutFalls_iff (s := s.channelTaken c) hb hk
  have exec_dwell := exec_row_occurs (exec_dwellExpiry hh c) hd
  have exec_timeout := exec_row_occurs (exec_answerTimeout hh c) hd
  refine ⟨fun h => ?dwellWaits, fun h => ?timeoutWaits,
    fun hm hn hr => ⟨_, exec_dwell (dwell.mpr ⟨hm, hn, hr⟩), State.channelWorked_channelWork _ c⟩,
    fun hm hn hr => ⟨_, exec_timeout (timeout.mpr ⟨hm, hn, hr⟩), State.channelWorked_channelWork _ c⟩,
    fun hq hl hp w after hw ha mark hmark => ?quiet⟩
  case dwellWaits =>
    refine exec_row_waits (exec_dwellExpiry hh c) ?_
    rw [dwell]
    rintro ⟨hm, hn, hr⟩
    rcases h with h | h | h
    · exact Bool.false_ne_true (hm.symm.trans h)
    · exact hn h
    · exact Nat.not_le.mpr h hr
  case timeoutWaits =>
    refine exec_row_waits (exec_answerTimeout hh c) ?_
    rw [timeout]
    rintro ⟨hm, hn, hr⟩
    rcases h with h | h | h
    · exact Bool.false_ne_true (hm.symm.trans h)
    · exact h hn
    · exact Nat.not_le.mpr h hr
  case quiet =>
    have quiet : (s.channel c).Quiet := ⟨hq, hl, hp⟩
    obtain rfl : w = s.channelTaken c := hw
    have begun (hm : (s.channel c).begun = false) :
        (if k.guard = 0 then (s.channel c).begun else decide (.channel c ∈ (s.channelTaken c).due)) = mark := by
      rw [hmark, hm]
      split
      · next h0 => simp [h0]
      · next h0 => simp [h0]
    have ended (o : CueOutcome) (hm : (s.channel c).begun = false) : ((s.channelTaken c).commandEnded c k o).channel c =
        { s.channel c with command := none, state := after, guard := if k.guard = 0 then (s.channel c).guard else k.guard
                           begun := mark } := by
      rw [State.commandEnded_channel_self, ha, ← begun hm]
      rfl
    refine ⟨fun hm => State.channelWork_busy_marked hb quiet hm,
      fun hm hd ha => State.channelWork_counts hb quiet hm hk hd ha, fun hm hn hr => ?dwell, fun hm hn hr y hy => ?timeout⟩
    case dwell =>
      rw [exec_dwell (dwell.mpr ⟨hm, hn, hr⟩), State.channelWork_dwell (s := s.channelTaken c) hb quiet hm hk hn hr,
        State.commandEnded_setChannel, ended .done hm]
      rfl
    case timeout =>
      subst hy
      rw [exec_timeout (timeout.mpr ⟨hm, hn, hr⟩)]
      refine ⟨fun hf => ?_, fun hf => ?_, fun hf => ?_, fun hf => ?_⟩
      · rw [State.channelWork_latches (s := s.channelTaken c) hb quiet hm hk hn hr hf]
        rfl
      · rw [State.channelWork_retries (s := s.channelTaken c) hb quiet hm hk hn hr hf]
        rfl
      · rw [State.channelWork_reports (s := s.channelTaken c) hb quiet hm hk hn hr hf, State.commandEnded_setChannel, ended _ hm]
        rfl
      · rw [State.channelWork_ignores (s := s.channelTaken c) hb quiet hm hk hn hr hf, State.commandEnded_setChannel, ended _ hm]
        rfl

end Sys2Proof
end

section
/-! SUPPORT. What the work after the ageing of a queue leaves: no cue joins the queue, and a cue that none queued names is not touched (R122).
-/

namespace Sys2Proof.Machine

variable {s t u : State} {c : Chan} {k : Command} {o : CueOutcome} {l : List Queued} {failure : FailCause}

/-- No cue has joined the channel's queue, every cue that none queued there names is as it was, and the limits of silence and polls
stand. -/
structure State.ServesQueue (c : Chan) (s u : State) : Prop where
  queue : ∀ q ∈ (u.channel c).queue, q ∈ (s.channel c).queue
  cues : ∀ i n, (∀ q ∈ (s.channel c).queue, q.cue.slot ≠ i ∨ q.cue.index ≠ n) → u.cue? i n = s.cue? i n
  silentLimit : (u.channel c).silentLimit = (s.channel c).silentLimit
  pollInterval : (u.channel c).pollInterval = (s.channel c).pollInterval

theorem State.ServesQueue.refl (c : Chan) (s : State) : State.ServesQueue c s s := ⟨fun _ h => h, fun _ _ _ => rfl, rfl, rfl⟩

theorem State.ServesQueue.trans (a : State.ServesQueue c s t) (b : State.ServesQueue c t u) : State.ServesQueue c s u where
  queue := fun q hq => a.queue q (b.queue q hq)
  cues := fun i n h => (b.cues i n fun q hq => h q (a.queue q hq)).trans (a.cues i n h)
  silentLimit := b.silentLimit.trans a.silentLimit
  pollInterval := b.pollInterval.trans a.pollInterval

/-- A write of the channel's record that keeps its queue and its limits. -/
theorem State.servesQueue_of_record {x : Channel} (hs : u.slots = s.slots) (hx : u.channel c = x)
    (hq : x.queue = (s.channel c).queue) (hl : x.silentLimit = (s.channel c).silentLimit)
    (hp : x.pollInterval = (s.channel c).pollInterval) : State.ServesQueue c s u where
  queue := fun q h => by rwa [hx, hq] at h
  cues := fun i n _ => State.cue?_of_slots hs i n
  silentLimit := by rw [hx, hl]
  pollInterval := by rw [hx, hp]

theorem State.servesQueue_commandEnded (s : State) (c : Chan) (k : Command) (o : CueOutcome) :
    State.ServesQueue c s (s.commandEnded c k o) :=
  State.servesQueue_of_record rfl (s.commandEnded_channel_self c k o) rfl rfl rfl

theorem State.SentFrom.servesQueue {q : Queued} (h : s.SentFrom u c q l) (hq : (s.channel c).queue = q :: l) :
    State.ServesQueue c s u where
  queue := fun p hp => by
    rw [h.channel] at hp
    rw [hq]
    exact List.mem_cons_of_mem q hp
  cues := fun i n hn => by
    by_cases hi : i = q.cue.slot
    · rw [hi]
      exact h.cue.otherCues n fun e => (hn q (by rw [hq]; exact List.mem_cons_self)).elim (· hi.symm) (· e.symm)
    · rw [State.cue?, h.cue.others i hi]
      rfl
  silentLimit := by rw [h.channel]
  pollInterval := by rw [h.channel]

theorem State.Granted.servesQueue (h : State.Granted c s u) : State.ServesQueue c s u := by
  induction h with
  | none _ => exact .refl c _
  | runs _ hq _ sent => exact sent.servesQueue hq
  | done _ hq _ sent _ _ ih => exact ((sent.servesQueue hq).trans (State.servesQueue_commandEnded _ c _ .done)).trans ih

theorem State.servesQueue_grant (s : State) (c : Chan) : State.ServesQueue c s (s.grant c) := (s.granted_grant c).servesQueue

theorem State.servesQueue_enterFault (s : State) (c : Chan) (cause : FaultCause) : State.ServesQueue c s (s.enterFault c cause) := by
  by_cases hf : (s.channel c).state = .faulted
  · rw [State.enterFault, if_pos hf]
    exact .refl c s
  · cases hm : (s.channel c).faultMode with
    | latch =>
      obtain ⟨record, -⟩ := (State.faultEntered_enterFault hf cause).latch hm
      refine ⟨fun q hq => ?_, fun i n h => ?_, by rw [record], by rw [record]⟩
      · rw [record] at hq
        cases hq
      · rw [State.enterFault_latch hf hm]
        exact State.failQueued_cue?_other h
    | retry =>
      rw [State.enterFault_retry hf hm]
      exact State.servesQueue_of_record rfl (State.setChannel_channel_self _ _ _) rfl rfl rfl
    | report =>
      rw [State.enterFault_report hf hm]
      exact State.servesQueue_of_record rfl (State.setChannel_channel_self _ _ _) rfl rfl rfl
    | ignore =>
      rw [State.enterFault_ignore hf hm]
      exact State.servesQueue_of_record rfl (State.setChannel_channel_self _ _ _) rfl rfl rfl

/-! ### The steps of the frame work after the first -/

theorem State.servesQueue_slotWork (s : State) (c : Chan) (running : Bool) : State.ServesQueue c s (s.slotWork c running) := by
  by_cases h : running = true ∧ (s.channel c).state = .busy
  · obtain ⟨rfl, hb⟩ := h
    cases hk : (s.channel c).command with
    | none =>
      rw [State.slotWork_empty hb hk]
      exact .refl c s
    | some k =>
      have ticked : State.ServesQueue c s (s.ticked c k) :=
        State.servesQueue_of_record rfl (s.ticked_channel_self c k) rfl rfl rfl
      have ended (o : CueOutcome) : State.ServesQueue c s ((s.ticked c k).endCommand c o) := by
        rw [State.ticked_endCommand]
        exact (s.servesQueue_commandEnded c k o).trans (State.servesQueue_grant _ c)
      rw [State.slotWork_command hb hk]
      split
      · exact ended .done
      · split
        · rw [State.timeOut]
          split
          · exact ticked.trans (State.servesQueue_enterFault _ c .timeout)
          · exact (ended _).trans (State.servesQueue_enterFault _ c .timeout)
        · exact ticked
  · rw [State.slotWork, if_neg h]
    exact .refl c s

theorem State.servesQueue_guardWork (s : State) (c : Chan) (running : Bool) : State.ServesQueue c s (s.guardWork c running) := by
  unfold State.guardWork
  dsimp only
  split
  · exact State.servesQueue_of_record rfl (State.setChannel_channel_self _ _ _) rfl rfl rfl
  · exact .refl c s

theorem State.servesQueue_recoveryWork (s : State) (c : Chan) (running : Bool) :
    State.ServesQueue c s (s.recoveryWork c running) := by
  unfold State.recoveryWork
  dsimp only
  split
  · exact State.servesQueue_of_record rfl (State.setChannel_channel_self _ _ _) rfl rfl rfl
  · exact .refl c s

theorem State.servesQueue_silenceWork (s : State) (c : Chan) : State.ServesQueue c s (s.silenceWork c) := by
  by_cases falls : (s.channel c).fallsSilent = true
  · rw [State.silenceWork_faults falls]
    exact s.servesQueue_enterFault c .silent
  · by_cases counted : (s.channel c).state.counted = true
    · rw [Channel.fallsSilent_iff, not_and] at falls
      rw [State.silenceWork_counts counted (by have := falls counted; omega)]
      exact State.servesQueue_of_record rfl (State.setChannel_channel_self _ _ _) rfl rfl rfl
    · rw [State.silenceWork_uncounted (Bool.eq_false_of_not_eq_true counted)]
      exact .refl c s

theorem State.servesQueue_pollWork (s : State) (c : Chan) : State.ServesQueue c s (s.pollWork c) := by
  unfold State.pollWork
  dsimp only
  split
  · exact State.servesQueue_of_record rfl (State.setChannel_channel_self _ _ _) rfl rfl rfl
  · split
    · exact State.servesQueue_of_record rfl (State.setChannel_channel_self _ _ _) rfl rfl rfl
    · exact .refl c s

theorem State.servesQueue_afterGrantWork (s : State) (c : Chan) : State.ServesQueue c (s.afterAgeing c) (s.afterGrantWork c) :=
  (((State.servesQueue_slotWork _ c _).trans (State.servesQueue_guardWork _ c _)).trans
    (State.servesQueue_recoveryWork _ c _)).trans (State.servesQueue_grant _ c)

/-- All of a channel's frame work but its ageing. -/
theorem State.servesQueue_channelWork (h : (s.channel c).state ≠ .offline) :
    State.ServesQueue c (s.afterAgeing c) (s.channelWork c) := by
  by_cases hf : (s.channel c).state = .faulted
  · rw [State.channelWork_faulted hf]
    exact .refl c _
  · rw [State.channelWork_works (ChannelState.works_iff.mpr ⟨h, hf⟩)]
    exact ((s.servesQueue_afterGrantWork c).trans (State.servesQueue_silenceWork _ c)).trans (State.servesQueue_pollWork _ c)

theorem State.afterGrantWork_silentLimit (s : State) (c : Chan) :
    ((s.afterGrantWork c).channel c).silentLimit = (s.channel c).silentLimit := by
  rw [(s.servesQueue_afterGrantWork c).silentLimit, State.afterAgeing_channel_self]

theorem State.afterGrantWork_pollInterval (s : State) (c : Chan) :
    ((s.afterGrantWork c).channel c).pollInterval = (s.channel c).pollInterval := by
  rw [(s.servesQueue_afterGrantWork c).pollInterval, State.afterAgeing_channel_self]

end Sys2Proof.Machine
end

section
/-! PROOFS. The seven steps of a channel's frame work, and each of its counts before and when it runs out (R121 to R123, R127, R128, R131).
-/

namespace Sys2Proof.Machine

variable {s : State} {c : Chan} {q : Queued}

/-! ### Ageing (R123) -/

/-- The work leaves the cues past their tolerance FAILED LATE, where no other cue of the queue names them. -/
theorem State.channelWork_cue?_late (h : (s.channel c).state ≠ .offline) (hq : q ∈ (s.channel c).queue)
    (ha : (q.tolerance : Int) < frameDiff s.sfc q.fire)
    (apart : ∀ p ∈ (s.channel c).queue, ¬((p.tolerance : Int) < frameDiff s.sfc p.fire) →
      q.cue.slot ≠ p.cue.slot ∨ q.cue.index ≠ p.cue.index) :
    (s.channelWork c).cue? q.cue.slot q.cue.index = (s.cue? q.cue.slot q.cue.index).map (Cue.failed .late) := by
  rw [(State.servesQueue_channelWork h).cues]
  · exact State.ageQueue_cue?_late (s := s.beginWork c) (by rw [State.beginWork_channel_self]; exact hq) ha
  · intro p hp
    rw [State.afterAgeing_channel_self] at hp
    obtain ⟨hp, fresh⟩ := List.mem_filter.mp hp
    exact (apart p hp (Int.not_lt.mpr (of_decide_eq_true fresh))).imp Ne.symm Ne.symm

/-- What is queued after the work was queued before, and is not past its tolerance. -/
theorem State.mem_queue_channelWork (h : (s.channel c).state ≠ .offline) (hq : q ∈ ((s.channelWork c).channel c).queue) :
    q ∈ (s.channel c).queue ∧ frameDiff s.sfc q.fire ≤ q.tolerance := by
  have aged := (State.servesQueue_channelWork h).queue q hq
  rw [State.afterAgeing_channel_self] at aged
  exact (List.mem_filter.mp aged).imp_right of_decide_eq_true

/-! ### Silence (R128) -/

/-- Counts that do not run out leave the channel in service, its silent count untouched (R122). -/
theorem State.afterCounts_inService (h : (s.channel c).state = .ready ∨
    (s.channel c).state = .busy ∧ (∀ k, (s.channel c).command = some k → (s.channel c).begun = true ∨
      (k.mode ≠ .answer → k.busy + 1 < k.dwell) ∧ (k.mode = .answer → k.busy + 1 < k.answerTimeout)) ∨
    (s.channel c).state = .guard ∧ ((s.channel c).begun = true ∨ 1 < (s.channel c).guard)) :
    ((s.afterCounts c).channel c).state.counted = true ∧ ((s.afterCounts c).channel c).silent = (s.channel c).silent := by
  have aged := s.afterAgeing_channel_self c
  have in_service : (s.channel c).state.counted = true :=
    ChannelState.counted_iff.mpr (h.imp_right (Or.imp And.left And.left))
  have still (e : s.afterCounts c = s.afterAgeing c) :
      ((s.afterCounts c).channel c).state.counted = true ∧ ((s.afterCounts c).channel c).silent = (s.channel c).silent := by
    rw [e, aged]
    exact ⟨in_service, rfl⟩
  rcases Bool.eq_false_or_eq_true (s.channel c).begun with marked | unmarked
  · refine still ?_
    rw [State.afterCounts_still (by rw [marked]; nofun) (by rw [marked]; nofun), State.afterSlotWork_still (by rw [marked]; nofun)]
  · rcases h with ready | ⟨busy, runs⟩ | ⟨guard, runs⟩
    · refine still ?_
      rw [State.afterCounts_still (by rw [ready]; nofun) (by rw [ready]; nofun), State.afterSlotWork_still (by rw [ready]; nofun)]
    · have busy' : ((s.afterAgeing c).channel c).state = .busy := by rw [aged]; exact busy
      have command : ((s.afterAgeing c).channel c).command = (s.channel c).command := by rw [aged]
      rw [State.afterCounts_still (by rw [busy]; nofun) (by rw [busy]; nofun), State.afterSlotWork_busy busy unmarked]
      cases hk : (s.channel c).command with
      | none =>
        rw [State.slotWork_empty busy' (command.trans hk), aged]
        exact ⟨in_service, rfl⟩
      | some k =>
        obtain ⟨dwell, timeout⟩ := (runs k hk).resolve_left fun marked => Bool.false_ne_true (unmarked.symm.trans marked)
        rw [State.slotWork_counts busy' (command.trans hk) dwell timeout, State.ticked_channel_self, aged]
        exact ⟨in_service, rfl⟩
    · have more := runs.resolve_left fun marked => Bool.false_ne_true (unmarked.symm.trans marked)
      rw [State.afterCounts_guard guard unmarked, State.setChannel_channel_self, if_neg (Nat.not_le.mpr more), aged]
      exact ⟨rfl, rfl⟩

/-- The silent count that reaches its limit falls due, also for what the grant has sent. -/
theorem State.silenceFalls_inService (hs : ((s.afterCounts c).channel c).state.counted = true)
    (hn : ((s.afterCounts c).channel c).silent = (s.channel c).silent) (hw : (s.channel c).state.works = true)
    (h0 : (s.channel c).silentLimit ≠ 0) (hl : (s.channel c).silentLimit ≤ min 1023 ((s.channel c).silent + 1)) :
    s.silenceFalls c = true := by
  have granted := State.granted_grant (s.afterCounts c) c
  have silent : ((s.afterGrantWork c).channel c).silent = (s.channel c).silent := granted.silent.trans hn
  rw [State.silenceFalls_iff, Channel.fallsSilent_iff, State.afterGrantWork_silentLimit, silent]
  exact ⟨hw, granted.counted hs, h0, hl⟩

/-! ### The guard and the recovery (R122, R131) -/

/-- The record of a channel whose guard or recovery has ended. -/
def Channel.awakened (x : Channel) : Channel :=
  { x with
    state := .ready, guard := if x.state = .guard then 0 else x.guard
    recovery := if x.state = .recovering then 0 else x.recovery }

section
variable (hm : (s.channel c).begun = false) (hf : ∀ q ∈ (s.channel c).queue, frameDiff s.sfc q.fire ≤ q.tolerance)
include hm hf

theorem State.afterAgeing_unchanged : s.afterAgeing c = s := by
  rw [State.afterAgeing_fresh hf, State.beginWork_unmarked hm]

/-- The last frame of a guard or of a recovery leaves the channel READY. -/
theorem State.afterCounts_expires (h : (s.channel c).state = .guard ∧ (s.channel c).guard ≤ 1 ∨
    (s.channel c).state = .recovering ∧ (s.channel c).recovery ≤ 1) : s.afterCounts c = s.setChannel c (s.channel c).awakened := by
  rcases h with ⟨hs, h⟩ | ⟨hs, h⟩
  · rw [State.afterCounts_guard hs hm, State.afterAgeing_unchanged hm hf, if_pos h, Channel.awakened, hs,
      Nat.sub_eq_zero_of_le h]
    rfl
  · rw [State.afterCounts_recovering hs hm, State.afterAgeing_unchanged hm hf, if_pos h, Channel.awakened, hs,
      Nat.sub_eq_zero_of_le h]
    rfl

theorem State.channelWork_expires (hl : (s.channel c).silentLimit = 0) (hp : (s.channel c).pollInterval = 0)
    (h : (s.channel c).state = .guard ∧ (s.channel c).guard ≤ 1 ∨
      (s.channel c).state = .recovering ∧ (s.channel c).recovery ≤ 1) :
    s.channelWork c = ((s.setChannel c (s.channel c).awakened).grant c).setChannel c
      { ((s.setChannel c (s.channel c).awakened).grant c).channel c with silent := min 1023 ((s.channel c).silent + 1) } := by
  have granted := State.granted_grant (s.setChannel c (s.channel c).awakened) c
  have serves := granted.servesQueue
  have counted := granted.counted (by rw [State.setChannel_channel_self]; rfl)
  have silent := granted.silent
  have limit := serves.silentLimit
  have poll := serves.pollInterval
  rw [State.setChannel_channel_self] at silent limit poll
  have works : (s.channel c).state.works = true := by
    rcases h with ⟨hs, -⟩ | ⟨hs, -⟩ <;> (rw [hs]; rfl)
  rw [State.channelWork_works works, State.afterGrantWork_eq, State.afterCounts_expires hm hf h,
    State.silenceWork_pollWork_counts counted (.inl (limit.trans hl)) (poll.trans hp), silent]
  rfl

theorem State.channelWork_guard_runs (hs : (s.channel c).state = .guard) (h : 1 < (s.channel c).guard)
    (hl : (s.channel c).silentLimit = 0) (hp : (s.channel c).pollInterval = 0) : s.channelWork c =
      s.setChannel c { s.channel c with guard := (s.channel c).guard - 1, silent := min 1023 ((s.channel c).silent + 1) } := by
  have counts : s.afterCounts c = s.setChannel c { s.channel c with guard := (s.channel c).guard - 1 } := by
    rw [State.afterCounts_guard hs hm, State.afterAgeing_unchanged hm hf, if_neg (Nat.not_le.mpr h), ← hs]
  rw [State.channelWork_works (by rw [hs]; rfl), State.afterGrantWork_eq, counts, State.grant_idle,
    State.silenceWork_pollWork_counts, State.setChannel_channel_self, State.setChannel_setChannel]
  all_goals rw [State.setChannel_channel_self]
  · exact ChannelState.counted_iff.mpr (.inr (.inr hs))
  · exact .inl hl
  · exact hp
  · exact fun ready => absurd (hs.symm.trans ready) nofun

theorem State.channelWork_recovery_runs (hs : (s.channel c).state = .recovering) (h : 1 < (s.channel c).recovery) :
    s.channelWork c = s.setChannel c { s.channel c with recovery := (s.channel c).recovery - 1 } := by
  have counts : s.afterCounts c = s.setChannel c { s.channel c with recovery := (s.channel c).recovery - 1 } := by
    rw [State.afterCounts_recovering hs hm, State.afterAgeing_unchanged hm hf, if_neg (Nat.not_le.mpr h), ← hs]
  have recovering : ((s.afterCounts c).channel c).state = .recovering := by rw [counts, State.setChannel_channel_self]; exact hs
  rw [State.channelWork_works (by rw [hs]; rfl), State.afterGrantWork_eq,
    State.grant_idle fun ready => absurd (recovering.symm.trans ready) nofun,
    State.silenceWork_pollWork_uncounted (by rw [recovering]; rfl), counts]

end

/-- A recovery that began ahead of the frame work of its own frame event is not counted in it. -/
theorem State.channelWork_recovery_marked (hm : (s.channel c).begun = true) (hs : (s.channel c).state = .recovering)
    (hf : ∀ q ∈ (s.channel c).queue, frameDiff s.sfc q.fire ≤ q.tolerance) :
    s.channelWork c = s.setChannel c { s.channel c with begun := false } := by
  rw [State.channelWork_works (by rw [hs]; rfl),
    State.afterGrantWork_still (.inl hm) hf fun ready => absurd (hs.symm.trans ready) nofun,
    State.silenceWork_pollWork_uncounted (by rw [State.beginWork_channel_self, hs]; rfl), State.beginWork]

/-! ### Silence and polls of an idle channel (R127, R128) -/

theorem State.beginWork_silenceWork_ready (hs : (s.channel c).state = .ready)
    (hl : (s.channel c).silentLimit = 0 ∨ min 1023 ((s.channel c).silent + 1) < (s.channel c).silentLimit) :
    (s.beginWork c).silenceWork c =
      s.setChannel c { s.channel c with begun := false, silent := min 1023 ((s.channel c).silent + 1) } := by
  have record := s.beginWork_channel_self c
  rw [State.silenceWork_counts (by rw [record]; exact ChannelState.counted_iff.mpr (.inl hs)) (by rw [record]; exact hl), record,
    State.beginWork, State.setChannel_setChannel]

section
variable (hs : (s.channel c).state = .ready) (hq : (s.channel c).queue = [])
include hs hq

theorem State.afterGrantWork_ready : s.afterGrantWork c = s.beginWork c :=
  State.afterGrantWork_still (.inr hs) (by rw [hq]; nofun) fun _ => hq

theorem State.channelWork_ready : s.channelWork c = ((s.beginWork c).silenceWork c).pollWork c := by
  rw [State.channelWork_works (by rw [hs]; rfl), State.afterGrantWork_ready hs hq]

theorem State.silenceFalls_ready : s.silenceFalls c = true ↔
    (s.channel c).silentLimit ≠ 0 ∧ (s.channel c).silentLimit ≤ min 1023 ((s.channel c).silent + 1) := by
  rw [State.silenceFalls_iff, State.afterGrantWork_ready hs hq, State.beginWork_channel_self, Channel.fallsSilent_iff, hs]
  exact ⟨fun h => h.2.2, fun h => ⟨rfl, rfl, h⟩⟩

section
variable (hl : (s.channel c).silentLimit = 0 ∨ min 1023 ((s.channel c).silent + 1) < (s.channel c).silentLimit)
include hl

theorem State.pollFalls_ready : s.pollFalls c = true ↔
    (s.channel c).pollInterval ≠ 0 ∧ (s.channel c).pollInterval ≤ (s.channel c).poll + 1 := by
  rw [State.pollFalls_iff, State.afterGrantWork_ready hs hq, State.beginWork_silenceWork_ready hs hl,
    State.setChannel_channel_self, Channel.pollsNow_iff, hs]
  exact ⟨fun h => h.2.2, fun h => ⟨rfl, rfl, h⟩⟩

theorem State.channelWork_polls (h0 : (s.channel c).pollInterval ≠ 0) (h : (s.channel c).pollInterval ≤ (s.channel c).poll + 1) :
    s.channelWork c = (s.setChannel c { s.channel c with
      begun := false, silent := min 1023 ((s.channel c).silent + 1), poll := 0 }).emit (.device c) .poll := by
  rw [State.channelWork_ready hs hq, State.beginWork_silenceWork_ready hs hl, State.pollWork_polls,
    State.setChannel_channel_self, State.setChannel_setChannel]
  rw [State.setChannel_channel_self, Channel.pollsNow_iff]
  exact ⟨hs, h0, h⟩

end
end

end Sys2Proof.Machine

namespace Sys2Proof

open Sys2Proof.Machine

/-- Settles O51: the seven steps, and then each count by what it leaves of the steps before it: nothing late, the guard or the recovery
ended and the queue granted, silence and polls counted. -/
theorem channelCountsRunOut : Obligations.ChannelCountsRunOut := by
  refine ⟨fun s c => s.channelWorked_channelWork c, ?_⟩
  rintro s w c x hh hd rfl hw
  obtain rfl : w = s.channelTaken c := hw
  have worked := (s.channelTaken c).channelWorked_channelWork c
  have marked_not {st : ChannelState} (hm : (s.channel c).begun = true) : ¬((s.channel c).state = st ∧ (s.channel c).begun = false) :=
    fun h => Bool.false_ne_true (h.2.symm.trans hm)
  refine ⟨fun i hi => ?rows, fun hm hs h => ?guardEnds, fun hm hs h => ?recoveryEnds, fun h h0 hl => ?silence, fun h0 => ?noSilence,
    fun h0 => ?noPolls, fun hs late apart => ?late, fun hf => ?fresh, fun hf hl hp => ⟨fun hm h y hy => ?expires,
    fun hm hs => ⟨?guardWaits, ?guardMarked⟩, fun hm hs => ⟨?recoveryWaits, ?recoveryMarked⟩, fun hm hs h => ⟨?guardMore, ?guardRuns⟩,
    fun hm hs h => ⟨?recoveryMore, ?recoveryRuns⟩⟩, fun hs hq hk => ?idle⟩
  case rows =>
    simp only [List.mem_cons, List.not_mem_nil, or_false] at hi
    rcases hi with rfl | rfl | rfl | rfl | rfl | rfl | rfl
    · exact exec_row_cases (exec_cueAgedLate hh c) hd
    · exact exec_row_cases (exec_dwellExpiry hh c) hd
    · exact exec_row_cases (exec_answerTimeout hh c) hd
    · exact exec_row_cases (exec_guardExpiry hh c) hd
    · exact exec_row_cases (exec_recoveryExpiry hh c) hd
    · exact exec_row_cases (exec_silentFault hh c) hd
    · exact exec_row_cases (exec_poll hh c) hd
  case guardEnds => exact ⟨_, exec_row_occurs (exec_guardExpiry hh c) hd (State.guardEnds_iff.mpr ⟨⟨hs, hm⟩, h⟩), worked⟩
  case recoveryEnds => exact ⟨_, exec_row_occurs (exec_recoveryExpiry hh c) hd (State.recoveryEnds_iff.mpr ⟨⟨hs, hm⟩, h⟩), worked⟩
  case silence =>
    obtain ⟨counted, silent⟩ := State.afterCounts_inService (s := s.channelTaken c) (h.imp_left And.left)
    have works : (s.channel c).state.works = true := by
      rcases h with ⟨hs, -⟩ | ⟨hs, -⟩ | ⟨hs, -⟩ <;> (rw [hs]; rfl)
    exact ⟨_, exec_row_occurs (exec_silentFault hh c) hd (State.silenceFalls_inService counted silent works h0 hl), worked⟩
  case noSilence =>
    refine exec_row_waits (exec_silentFault hh c) fun falls => ?_
    obtain ⟨-, limit, -⟩ := Channel.fallsSilent_iff.mp (State.silenceFalls_iff.mp falls).2
    rw [State.afterGrantWork_silentLimit] at limit
    exact limit h0
  case noPolls =>
    refine exec_row_waits (exec_poll hh c) fun polls => ?_
    obtain ⟨-, interval, -⟩ := Channel.pollsNow_iff.mp (State.pollFalls_iff.mp polls).2
    rw [(State.servesQueue_silenceWork _ c).pollInterval, State.afterGrantWork_pollInterval] at interval
    exact interval h0
  case late =>
    refine ⟨_, exec_row_occurs (exec_cueAgedLate hh c) hd (State.agesOut_iff.mpr ⟨hs, late⟩),
      (State.cueLevel_channelWork _ c).aside, worked, fun q hq => State.mem_queue_channelWork (s := s.channelTaken c) hs hq,
      fun q hq ha z hz => ?_, fun hf => ?_⟩
    · rw [State.channelWork_cue?_late (s := s.channelTaken c) hs hq ha fun p hp hn => apart q hq p hp ha hn] at hz
      obtain ⟨y, -, rfl⟩ := Option.map_eq_some_iff.mp hz
      exact ⟨rfl, rfl⟩
    · rw [State.channelWork_faulted (s := s.channelTaken c) hf, State.afterAgeing_channel_self]
      rfl
  case fresh =>
    refine exec_row_waits (exec_cueAgedLate hh c) fun ages => ?_
    obtain ⟨-, q, hq, late⟩ := State.agesOut_iff.mp ages
    exact absurd (hf q hq) (Int.not_le.mpr late)
  case expires =>
    obtain rfl : y = (s.channel c).awakened := hy
    have expires := State.channelWork_expires (s := s.channelTaken c) hm hf hl hp h
    have record : ((s.channelTaken c).setChannel c (s.channel c).awakened).channel c = (s.channel c).awakened :=
      State.setChannel_channel_self _ _ _
    refine ⟨_, fun hs => exec_row_occurs (exec_guardExpiry hh c) hd (State.guardEnds_iff.mpr ⟨⟨hs, hm⟩, ?_⟩),
      fun hs => exec_row_occurs (exec_recoveryExpiry hh c) hd (State.recoveryEnds_iff.mpr ⟨⟨hs, hm⟩, ?_⟩), fun hq => ?_,
      fun q rest hq runs => ⟨_, State.sentFrom_send _ c q rest, ?_⟩, ⟨_, State.granted_grant _ c, expires⟩⟩
    · exact h.elim And.right fun h => absurd (hs.symm.trans h.1) nofun
    · exact h.elim (fun h => absurd (hs.symm.trans h.1) nofun) And.right
    · rw [State.channelTaken_channel, State.grant_idle fun _ => by rw [record]; exact hq, record, State.setChannel_setChannel]
        at expires
      exact expires
    · have sends := State.grant_runs (s := (s.channelTaken c).setChannel c (s.channel c).awakened) (by rw [record]; rfl)
        (by rw [record]; exact hq) runs
      rw [← sends]
      exact expires
  case guardWaits =>
    exact exec_row_waits (exec_guardExpiry hh c) fun ends => marked_not hm (State.guardEnds_iff.mp ends).1
  case guardMarked =>
    exact State.channelWork_still_counts (.inl hm) hf (fun ready => absurd (hs.symm.trans ready) nofun) (by rw [hs]; rfl) (.inl hl) hp
  case recoveryWaits =>
    exact exec_row_waits (exec_recoveryExpiry hh c) fun ends => marked_not hm (State.recoveryEnds_iff.mp ends).1
  case recoveryMarked => exact State.channelWork_recovery_marked hm hs hf
  case guardMore =>
    exact exec_row_waits (exec_guardExpiry hh c) fun ends => Nat.not_le.mpr h (State.guardEnds_iff.mp ends).2
  case guardRuns => exact State.channelWork_guard_runs hm hf hs h hl hp
  case recoveryMore =>
    exact exec_row_waits (exec_recoveryExpiry hh c) fun ends => Nat.not_le.mpr h (State.recoveryEnds_iff.mp ends).2
  case recoveryRuns => exact State.channelWork_recovery_runs hm hf hs h
  case idle =>
    have falls : State.silenceFalls c (s.channelTaken c) = true ↔ _ := State.silenceFalls_ready (s := s.channelTaken c) hs hq
    refine ⟨fun h0 hl => ⟨((s.channelTaken c).beginWork c).silenceWork c, _,
      exec_row_occurs (exec_silentFault hh c) hd (falls.mpr ⟨h0, hl⟩), ?faults, ?polled⟩, fun hl => ?heard⟩
    case faults =>
      have faults := (State.silenceCounted_silenceWork ((s.channelTaken c).beginWork c) c).faults
      rw [State.beginWork_channel_self] at faults
      exact faults (.inl hs) h0 hl
    case polled =>
      rw [State.channelWork_ready (s := s.channelTaken c) hs hq]
      exact State.pollCounted_pollWork _ c
    case heard =>
      have polls : State.pollFalls c (s.channelTaken c) = true ↔ _ := State.pollFalls_ready (s := s.channelTaken c) hs hq hl
      refine ⟨exec_row_waits (exec_silentFault hh c) fun now => ?_, fun h0 h => ?_,
        fun h => exec_row_waits (exec_poll hh c) fun now => h.elim (polls.mp now).1 (Nat.not_lt.mpr (polls.mp now).2)⟩
      · exact hl.elim (falls.mp now).1 (Nat.not_lt.mpr (falls.mp now).2)
      · rw [exec_row_occurs (exec_poll hh c) hd (polls.mpr ⟨h0, h⟩), State.channelWork_polls (s := s.channelTaken c) hs hq hl h0 h]
        rfl

end Sys2Proof
end

section
/-! SUPPORT. CHANNEL.CONFIG: its refusals, the record that it gives, and the cues that it fails (R134, R155, R163). -/

namespace Sys2Proof.Machine

variable {s : State} {c : Chan} {n fields : Nat} {v : ChannelSettings} {kind : ChannelKind} {mode : FaultMode} {x y : Channel}
  {d : List CueDone} {l : List Queued} {cause : FailCause}

theorem exec_channelConfig (h : s.portFree) (n fields : Nat) (v : ChannelSettings) :
    exec (.channelConfig n fields v) s = .next ((s.select 11).serveChannelConfig n fields v).buffered := exec_atPort rfl nofun h

/-! ### Codes, refusals and clamps -/

theorem channelKindOf_none_iff {m : Nat} : channelKindOf m = none ↔ 5 ≤ m := by
  refine ⟨fun h => ?_, fun h => ?_⟩
  · match m, h with
    | m + 5, _ => omega
  · match m, h with
    | m + 5, _ => rfl

theorem faultModeOf_none_iff {m : Nat} : faultModeOf m = none ↔ 4 ≤ m := by
  refine ⟨fun h => ?_, fun h => ?_⟩
  · match m, h with
    | m + 4, _ => omega
  · match m, h with
    | m + 4, _ => rfl

theorem channelSettings_refused_iff : (badFieldSet 5 fields || channelCodesBad fields v) = true ↔
    fields = 0 ∨ 32 ≤ fields ∨ (fields.testBit 0 = true ∧ 5 ≤ v.kind) ∨ (fields.testBit 1 = true ∧ 4 ≤ v.faultMode) := by
  simp only [channelCodesBad, Bool.or_eq_true, Bool.and_eq_true, badFieldSet_five, Option.isNone_iff_eq_none,
    channelKindOf_none_iff, faultModeOf_none_iff, or_assoc]

theorem State.serveChannelConfig_range (h : 12 ≤ n ∨ fields = 0 ∨ 32 ≤ fields ∨ (fields.testBit 0 = true ∧ 5 ≤ v.kind) ∨
    (fields.testBit 1 = true ∧ 4 ≤ v.faultMode)) : s.serveChannelConfig n fields v = s.refuse .range := by
  rw [State.serveChannelConfig]
  rcases Nat.lt_or_ge n 12 with hn | hn
  · rw [idOf_of_lt hn, State.ranged_some,
      if_pos (channelSettings_refused_iff.mpr (h.resolve_left (Nat.not_le.mpr hn)))]
  · rw [idOf_of_le hn, State.ranged_none]

/-- A setting of a CHANNEL.CONFIG stored at its limit (R134, R155). -/
theorem channelClamps_eq : channelClamps fields v = decide ((fields.testBit 2 = true ∧ 255 < v.pollInterval) ∨
    (fields.testBit 3 = true ∧ 1023 < v.silentLimit) ∨
    (fields.testBit 4 = true ∧ (v.retryInterval = 0 ∨ 1023 < v.retryInterval))) := by
  rw [Bool.eq_iff_iff]
  simp only [channelClamps, outside, Bool.or_eq_true, Bool.and_eq_true, decide_eq_true_eq, Nat.not_lt_zero, Nat.lt_one_iff,
    false_or, or_assoc]

/-! ### A record given, a completion handed and cues FAILED -/

/-- One channel's record given, completions handed, and cues FAILED with a cause: all that a CHANNEL.CONFIG can do. -/
def State.reconfigured (s : State) (c : Chan) (y : Channel) (d : List CueDone) (l : List Queued) (cause : FailCause) : State :=
  ((s.setChannel c y).setCuesDone (s.cuesDone ++ d)).failQueued l cause

theorem State.failQueued_setChannel (s : State) (l : List Queued) (cause : FailCause) (c : Chan) (y : Channel) :
    (s.failQueued l cause).setChannel c y = (s.setChannel c y).failQueued l cause := by
  induction l generalizing s with
  | nil => rfl
  | cons q l ih => exact ih (s.failCue q.cue.slot q.cue.index cause)

theorem State.reconfigured_channel_self (s : State) (c : Chan) (y : Channel) (d : List CueDone) (l : List Queued)
    (cause : FailCause) : (s.reconfigured c y d l cause).channel c = y := by
  rw [State.reconfigured, State.failQueued_channel, State.setCuesDone_channel, State.setChannel_channel_self]

theorem State.reconfigured_setChannel (s : State) (c : Chan) (y z : Channel) (d : List CueDone) (l : List Queued)
    (cause : FailCause) : (s.reconfigured c y d l cause).setChannel c z = s.reconfigured c z d l cause := by
  rw [State.reconfigured, State.failQueued_setChannel, State.setCuesDone_setChannel, State.setChannel_setChannel]
  rfl

/-- With nothing handed and no cue FAILED the record alone is given. -/
theorem State.reconfigured_nil (s : State) (c : Chan) (y : Channel) (cause : FailCause) :
    s.reconfigured c y [] [] cause = s.setChannel c y := by
  rw [State.reconfigured, List.append_nil]
  rfl

theorem State.reconfigured_eq (s : State) (c : Chan) (y : Channel) (d : List CueDone) (l : List Queued) (cause : FailCause) :
    s.reconfigured c y d l cause = { s with
      slots := (s.reconfigured c y d l cause).slots, channels := (s.channels.set c y), cuesDone := s.cuesDone ++ d
      flags := (s.reconfigured c y d l cause).flags } := by
  rw [State.reconfigured, State.failQueued_eq]
  rfl

/-! ### The kind (R134) -/

/-- A kind NONE is given to a channel in service. -/
def Channel.LeavesService (x : Channel) (fields : Nat) (kind : ChannelKind) : Prop :=
  fields.testBit 0 = true ∧ kind = .none ∧ x.state ≠ .offline

/-- The record of a channel taken out of service. -/
def Channel.unserved (x : Channel) : Channel :=
  { x with
    kind := .none, state := .offline, command := none, queue := [], faultFlag := false, silent := 0, poll := 0, guard := 0
    recovery := 0 }

/-- The record of a channel given a kind that does not take it out of service: one that is OFFLINE comes to READY. -/
def Channel.served (x : Channel) (fields : Nat) (kind : ChannelKind) : Channel :=
  if fields.testBit 0 = true ∧ kind ≠ .none ∧ x.state = .offline then
    { x with kind := kind, state := .ready, silent := 0, poll := 0, faultFlag := false }
  else { x with kind := kind }

section
variable (hk : if fields.testBit 0 then channelKindOf v.kind = some kind else kind = (s.channel c).kind)
include hk

theorem State.configKind_leaves (h : (s.channel c).LeavesService fields kind) : s.configKind c fields v =
    s.reconfigured c (s.channel c).unserved ((s.channel c).handed (.failed .offline)) (s.channel c).queue .offline := by
  obtain ⟨named, rfl, serving⟩ := h
  rw [if_pos named] at hk
  rw [State.configKind, if_pos named, hk, Option.getD_some, State.giveKind, if_pos rfl, if_neg serving]
  simp only [State.failQueue, State.emptySlot_eq, State.setCuesDone_channel, State.setChannel_channel_self,
    State.setCuesDone_setChannel, State.setChannel_setChannel, State.failQueued_channel, State.failQueued_setChannel]
  rfl

theorem State.configKind_stays (h : ¬(s.channel c).LeavesService fields kind) :
    s.configKind c fields v = s.setChannel c ((s.channel c).served fields kind) := by
  unfold State.configKind Channel.served
  by_cases named : fields.testBit 0 = true
  · rw [if_pos named] at hk
    rw [if_pos named, hk, Option.getD_some, State.giveKind]
    by_cases none_given : kind = .none
    · have offline : (s.channel c).state = .offline := not_not.mp fun serving => h ⟨named, none_given, serving⟩
      rw [if_pos none_given, if_pos offline, if_neg fun h => h.2.1 none_given, none_given]
    · rw [if_neg none_given]
      by_cases offline : (s.channel c).state = .offline
      · rw [if_pos offline, if_pos ⟨named, none_given, offline⟩]
      · rw [if_neg offline, if_neg fun h => offline h.2.2]
  · rw [if_neg named] at hk
    rw [if_neg named, if_neg fun h => named h.1, hk]
    exact (s.setChannel_channel_eq c).symm

end

/-- What a kind leaves of the record of a channel that stays in service. -/
theorem Channel.served_eq (x : Channel) (fields : Nat) (kind : ChannelKind) : x.served fields kind = { x with
    kind := kind, state := (x.served fields kind).state, silent := (x.served fields kind).silent
    poll := (x.served fields kind).poll, faultFlag := (x.served fields kind).faultFlag } := by
  unfold Channel.served
  split <;> rfl

/-! ### The fault mode (R134) -/

/-- LATCH is given to a channel that is FAULTED. -/
def Channel.DropsQueue (x : Channel) (fields : Nat) (mode : FaultMode) : Prop :=
  fields.testBit 1 = true ∧ mode = .latch ∧ x.state = .faulted

section
variable (hm : if fields.testBit 1 then faultModeOf v.faultMode = some mode else mode = (s.channel c).faultMode)
include hm

theorem State.configMode_drops (h : (s.channel c).DropsQueue fields mode) : s.configMode c fields v =
    s.reconfigured c { s.channel c with faultMode := mode, queue := [] } [] (s.channel c).queue .channelFault := by
  obtain ⟨named, rfl, faulted⟩ := h
  rw [if_pos named] at hm
  rw [State.configMode, if_pos named, hm, Option.getD_some, State.giveFaultMode, if_pos ⟨rfl, faulted⟩, State.failQueue,
    State.setChannel_channel_self, State.setChannel_setChannel, State.reconfigured, List.append_nil]
  rfl

theorem State.configMode_keeps (h : ¬(s.channel c).DropsQueue fields mode) :
    s.configMode c fields v = s.setChannel c { s.channel c with faultMode := mode } := by
  unfold State.configMode
  by_cases named : fields.testBit 1 = true
  · rw [if_pos named] at hm
    rw [if_pos named, hm, Option.getD_some, State.giveFaultMode, if_neg fun h' => h ⟨named, h'⟩]
  · rw [if_neg named] at hm
    rw [if_neg named, hm]
    exact (s.setChannel_channel_eq c).symm

end

/-! ### The whole configuration (R134) -/

/-- What a CHANNEL.CONFIG makes of a channel before its intervals are given: the record, the completion handed, the cues FAILED, and their
cause. -/
inductive Channel.Reconfigured (x : Channel) (fields : Nat) (kind : ChannelKind) (mode : FaultMode) :
    Channel → List CueDone → List Queued → FailCause → Prop
  | leaves (h : x.LeavesService fields kind) : Channel.Reconfigured x fields kind mode { x.unserved with faultMode := mode }
      (x.handed (.failed .offline)) x.queue .offline
  | drops (h : ¬x.LeavesService fields kind) (hd : x.DropsQueue fields mode) : Channel.Reconfigured x fields kind mode
      { x.served fields kind with faultMode := mode, queue := [] } [] x.queue .channelFault
  | keeps (h : ¬x.LeavesService fields kind) (hd : ¬x.DropsQueue fields mode) : Channel.Reconfigured x fields kind mode
      { x.served fields kind with faultMode := mode } [] [] .channelFault

theorem Channel.served_faulted : (x.served fields kind).state = .faulted ↔ x.state = .faulted := by
  unfold Channel.served
  split
  · next h => rw [h.2.2]; exact ⟨nofun, nofun⟩
  · rfl

theorem Channel.served_faultMode (x : Channel) (fields : Nat) (kind : ChannelKind) :
    (x.served fields kind).faultMode = x.faultMode := by rw [Channel.served_eq]

theorem Channel.served_queue (x : Channel) (fields : Nat) (kind : ChannelKind) : (x.served fields kind).queue = x.queue := by
  rw [Channel.served_eq]

/-- A CHANNEL.CONFIG that is not refused carries out the kind, the fault mode and the intervals. -/
theorem State.configureChannel_eq
    (hk : if fields.testBit 0 then channelKindOf v.kind = some kind else kind = (s.channel c).kind)
    (hm : if fields.testBit 1 then faultModeOf v.faultMode = some mode else mode = (s.channel c).faultMode) :
    ∃ z d l cause, (s.channel c).Reconfigured fields kind mode z d l cause ∧
      s.configureChannel c fields v = s.reconfigured c (z.configured fields v) d l cause := by
  by_cases leaves : (s.channel c).LeavesService fields kind
  · refine ⟨_, _, _, _, .leaves leaves, ?_⟩
    have record : (s.configKind c fields v).channel c = (s.channel c).unserved := by
      rw [State.configKind_leaves hk leaves, State.reconfigured_channel_self]
    have offline : ¬((s.configKind c fields v).channel c).DropsQueue fields mode := fun h => by
      rw [record] at h
      exact nomatch h.2.2
    rw [State.configureChannel, State.configMode_keeps (by rw [record]; exact hm) offline, State.setChannel_channel_self,
      State.setChannel_setChannel, record, State.configKind_leaves hk leaves, State.reconfigured_setChannel]
  · have stays := State.configKind_stays hk leaves
    have record : (s.configKind c fields v).channel c = (s.channel c).served fields kind := by
      rw [stays, State.setChannel_channel_self]
    have same : (((s.configKind c fields v).channel c).DropsQueue fields mode) ↔ (s.channel c).DropsQueue fields mode := by
      rw [record, Channel.DropsQueue, Channel.served_faulted]
      rfl
    have held : if fields.testBit 1 then faultModeOf v.faultMode = some mode
        else mode = ((s.configKind c fields v).channel c).faultMode := by
      rw [record, Channel.served_faultMode]
      exact hm
    by_cases drops : (s.channel c).DropsQueue fields mode
    · refine ⟨_, _, _, _, .drops leaves drops, ?_⟩
      rw [State.configureChannel, State.configMode_drops held (same.mpr drops), State.reconfigured_channel_self,
        State.reconfigured_setChannel, record, Channel.served_queue, stays]
      simp only [State.reconfigured, State.setChannel_setChannel]
      rfl
    · refine ⟨_, _, _, _, .keeps leaves drops, ?_⟩
      rw [State.configureChannel, State.configMode_keeps held (fun h => drops (same.mp h)), State.setChannel_channel_self,
        State.setChannel_setChannel, record, stays, State.setChannel_setChannel, State.reconfigured_nil]

section
variable {z : Channel} (h : x.Reconfigured fields kind mode z d l cause)
include h

/-- A configuration fails no cue but of the queue. -/
theorem Channel.Reconfigured.failed : ∀ q ∈ l, q ∈ x.queue := by
  cases h with
  | leaves _ => exact fun _ hq => hq
  | drops _ _ => exact fun _ hq => hq
  | keeps _ _ => nofun

/-- What a configuration gives, and what it leaves, of the record whatever the channel's state. -/
theorem Channel.Reconfigured.record : z = { x with
    kind := kind, faultMode := mode, state := z.state, command := z.command, queue := z.queue, faultFlag := z.faultFlag
    silent := z.silent, poll := z.poll, guard := z.guard, recovery := z.recovery } := by
  cases h with
  | leaves leaves => rw [leaves.2.1]; rfl
  | drops _ _ => rw [Channel.served_eq]
  | keeps _ _ => rw [Channel.served_eq]

end

theorem State.serveChannelConfig_sets (h0 : 0 < fields) (h1 : fields < 32)
    (hk : if fields.testBit 0 then channelKindOf v.kind = some kind else kind = (s.channel c).kind)
    (hm : if fields.testBit 1 then faultModeOf v.faultMode = some mode else mode = (s.channel c).faultMode) :
    s.serveChannelConfig c.val fields v = (s.configureChannel c fields v).accept (channelClamps fields v)
      (.channelConfig { (s.configureChannel c fields v).channel c with queue := [], begun := false }) := by
  have defined : ¬(badFieldSet 5 fields || channelCodesBad fields v) = true := by
    rw [channelSettings_refused_iff]
    rintro (h | h | ⟨named, h⟩ | ⟨named, h⟩)
    · omega
    · omega
    · rw [if_pos named, channelKindOf_none_iff.mpr h] at hk
      cases hk
    · rw [if_pos named, faultModeOf_none_iff.mpr h] at hm
      cases hm
  rw [State.serveChannelConfig, idOf_val, State.ranged_some, if_neg defined]

/-- The answered state of a CHANNEL.CONFIG that is not refused, record, completions and cues FAILED told. -/
theorem exec_channelConfig_sets (hp : s.portFree) (h0 : 0 < fields) (h1 : fields < 32)
    (hk : if fields.testBit 0 then channelKindOf v.kind = some kind else kind = (s.channel c).kind)
    (hm : if fields.testBit 1 then faultModeOf v.faultMode = some mode else mode = (s.channel c).faultMode) :
    ∃ z d l cause, (s.channel c).Reconfigured fields kind mode z d l cause ∧ exec (.channelConfig c.val fields v) s =
      .next (((s.select 11).reconfigured c (z.configured fields v) d l cause).withBuffer
        (.ready ⟨okOr (channelClamps fields v), .channelConfig { z.configured fields v with queue := [], begun := false }⟩)) := by
  obtain ⟨z, d, l, cause, becomes, configured⟩ := State.configureChannel_eq (s := s.select 11) hk hm
  refine ⟨z, d, l, cause, becomes, ?_⟩
  rw [exec_channelConfig hp, State.serveChannelConfig_sets (s := s.select 11) h0 h1 hk hm, configured,
    State.reconfigured_channel_self]
  rfl

end Sys2Proof.Machine
end

section
/-! PROOFS. CHANNEL.CONFIG (R134, R155). -/

namespace Sys2Proof.Machine

variable {s : State} {c : Chan} {fields : Nat} {v : ChannelSettings} {kind : ChannelKind} {mode : FaultMode} {x y z : Channel}
  {d : List CueDone} {l : List Queued} {cause : FailCause}

/-- The intervals a CHANNEL.CONFIG gives, held to their ranges, and what it leaves of the record (R134, R155). -/
theorem Channel.configured_eq (x : Channel) (fields : Nat) (v : ChannelSettings) : x.configured fields v = { x with
    pollInterval := if fields.testBit 2 then min v.pollInterval 255 else x.pollInterval
    silentLimit := if fields.testBit 3 then min v.silentLimit 1023 else x.silentLimit
    retryInterval := if fields.testBit 4 then max 1 (min v.retryInterval 1023) else x.retryInterval
    recovery := if fields.testBit 4 then min x.recovery (max 1 (min v.retryInterval 1023)) else x.recovery } := by
  rw [Channel.configured, clampTo_zero, clampTo_zero, clampTo_eq (show 1 ≤ 1023 by decide), Nat.min_comm 1023]
  rfl

/-- A recovery count that is 0 stays 0. -/
theorem Channel.configured_recovery_zero (h : x.recovery = 0) : (x.configured fields v).recovery = 0 := by
  rw [Channel.configured_eq, h, Nat.zero_min]
  exact ite_self 0

/-! ### What a reconfiguration reaches beyond the record -/

theorem State.reconfigured_channel_ne {e : Chan} (h : e ≠ c) : (s.reconfigured c y d l cause).channel e = s.channel e := by
  rw [State.reconfigured, State.failQueued_channel, State.setCuesDone_channel, State.setChannel_channel_ne s c y h]

theorem State.reconfigured_slot_other {i : Slot} (h : ∀ q ∈ l, q.cue.slot ≠ i) :
    (s.reconfigured c y d l cause).slot i = s.slot i := State.failQueued_slot_other h

theorem State.reconfigured_cuesDone (s : State) (c : Chan) (y : Channel) (d : List CueDone) (l : List Queued) (cause : FailCause) :
    (s.reconfigured c y d l cause).cuesDone = s.cuesDone ++ d := by rw [State.reconfigured_eq]

theorem State.cueLevel_reconfigured (s : State) (c : Chan) (y : Channel) (d : List CueDone) (l : List Queued) (cause : FailCause) :
    s.CueLevel (s.reconfigured c y d l cause) :=
  ((State.cueLevel_setChannel _ _ _).trans (State.cueLevel_setCuesDone _ _)).trans (State.cueLevel_failQueued _ _ _)

theorem State.reconfigured_flags (s : State) (c : Chan) (y : Channel) (d : List CueDone) (l : List Queued) (cause : FailCause) :
    (s.reconfigured c y d l cause).flags = s.flags ∨ (s.reconfigured c y d l cause).flags = s.flags.put .cueFail := by
  have flags : (s.reconfigured c y d l cause).flags = if l = [] then s.flags else s.flags.put .cueFail :=
    State.failQueued_flags _ l cause
  rw [flags]
  exact ite_eq_or_eq _ _ _

/-- Each cue failed by a reconfiguration is FAILED with its cause. -/
theorem State.reconfigured_cue? {q : Queued} (hq : q ∈ l) {w : Cue}
    (h : (s.reconfigured c y d l cause).cue? q.cue.slot q.cue.index = some w) : w.state = .failed ∧ w.failCause = some cause := by
  rw [State.reconfigured, State.failQueued_cue? ⟨q, hq, rfl, rfl⟩] at h
  obtain ⟨w, -, rfl⟩ := Option.map_eq_some_iff.mp h
  exact ⟨rfl, rfl⟩

/-! ### By the channel's state -/

/-- A channel that leaves service hands its command's completion and FAILS its queue, both OFFLINE. -/
theorem Channel.Reconfigured.of_leaves (h : x.Reconfigured fields kind mode z d l cause) (leaves : x.LeavesService fields kind) :
    z = { x.unserved with faultMode := mode } ∧ d = x.handed (.failed .offline) ∧ l = x.queue ∧ cause = .offline := by
  cases h with
  | leaves _ => exact ⟨rfl, rfl, rfl, rfl⟩
  | drops stays _ => exact absurd leaves stays
  | keeps stays _ => exact absurd leaves stays

/-- A channel that stays in service hands nothing, and is given its kind and mode with the queue it keeps. -/
theorem Channel.Reconfigured.of_stays (h : x.Reconfigured fields kind mode z d l cause) (stays : ¬x.LeavesService fields kind) :
    d = [] ∧ z = { x.served fields kind with faultMode := mode, queue := z.queue } := by
  cases h with
  | leaves leaves => exact absurd leaves stays
  | drops _ _ => exact ⟨rfl, rfl⟩
  | keeps _ _ => exact ⟨rfl, rfl⟩

/-- A FAULTED channel given LATCH FAILS its queue CHANNEL_FAULT. -/
theorem Channel.Reconfigured.of_drops (h : x.Reconfigured fields kind mode z d l cause) (stays : ¬x.LeavesService fields kind)
    (drops : x.DropsQueue fields mode) : z.queue = [] ∧ l = x.queue ∧ cause = .channelFault := by
  cases h with
  | leaves leaves => exact absurd leaves stays
  | drops _ _ => exact ⟨rfl, rfl, rfl⟩
  | keeps _ keeps => exact absurd drops keeps

theorem Channel.Reconfigured.of_keeps (h : x.Reconfigured fields kind mode z d l cause) (stays : ¬x.LeavesService fields kind)
    (keeps : ¬x.DropsQueue fields mode) : z.queue = x.queue ∧ l = [] := by
  cases h with
  | leaves leaves => exact absurd leaves stays
  | drops _ drops => exact absurd drops keeps
  | keeps _ _ => exact ⟨x.served_queue fields kind, rfl⟩

end Sys2Proof.Machine

namespace Sys2Proof

open Sys2Proof.Machine

/-- Settles O47: the record, the completions and the cues FAILED are those of the reconfiguration, by whether the channel leaves
service and whether it drops its queue. -/
theorem channelConfigSetsTheNamedFields : Obligations.ChannelConfigSetsTheNamedFields := by
  rintro s c fields v x hp rfl
  refine ⟨fun n h => ?range, fun kind mode h0 h1 hk hm => ?sets⟩
  case range => rw [exec_channelConfig hp, State.serveChannelConfig_range h, State.refuse_buffered]
  obtain ⟨z, d, l, cause, becomes, he⟩ := exec_channelConfig_sets hp h0 h1 hk hm
  rw [channelClamps_eq] at he
  have level := (s.select 11).cueLevel_reconfigured c (z.configured fields v) d l cause
  have fields_given := Channel.configured_eq z fields v
  have record := becomes.record
  refine ⟨_, z.configured fields v, he, (State.reconfigured_channel_self _ _ _ _ _ _).symm, ⟨level.sdoStatus, level.sdo, rfl⟩, ?frame,
    fun e => State.reconfigured_channel_ne, fun i h => State.reconfigured_slot_other fun q hq => h q (becomes.failed q hq),
    fun i => (level.items i).alike, State.reconfigured_flags _ _ _ _ _ _, ?kind, ?mode, ?tag, ?faultCause, ?begun, ?poll, ?silent,
    ?retry, fun named none_given serving => ?leaves, fun stays => ?stays⟩
  case frame =>
    rw [State.reconfigured_eq]
    rfl
  case kind => rw [fields_given, record]
  case mode => rw [fields_given, record]
  case tag => rw [fields_given, record]
  case faultCause => rw [fields_given, record]
  case begun => rw [fields_given, record]
  case poll => rw [fields_given, record]
  case silent => rw [fields_given, record]
  case retry => rw [fields_given, record]
  case leaves =>
    obtain ⟨rfl, rfl, rfl, rfl⟩ := becomes.of_leaves ⟨named, none_given, serving⟩
    refine ⟨rfl, rfl, rfl, rfl, rfl, rfl, rfl, Channel.configured_recovery_zero rfl,
      State.reconfigured_cuesDone _ _ _ _ _ _, fun q hq w => State.reconfigured_cue? hq⟩
  case stays =>
    obtain ⟨rfl, given⟩ := becomes.of_stays stays
    have served := (s.channel c).served_eq fields kind
    refine ⟨?command, ?guard, ?handed, ?recovery, fun named some_given offline => ?comes, fun others => ?same,
      fun named latch faulted => ?drops, fun keeps => ?keeps⟩
    case command => rw [fields_given, given, served]
    case guard => rw [fields_given, given, served]
    case handed => exact (State.reconfigured_cuesDone _ _ _ _ _ _).trans (List.append_nil _)
    case recovery => rw [fields_given, given, served]
    case comes =>
      rw [fields_given, given, Channel.served, if_pos ⟨named, some_given, offline⟩]
      exact ⟨rfl, rfl, rfl, rfl⟩
    case same =>
      rw [fields_given, given, Channel.served, if_neg others]
      exact ⟨rfl, rfl, rfl, rfl⟩
    case drops =>
      obtain ⟨queue, rfl, rfl⟩ := becomes.of_drops stays ⟨named, latch, faulted⟩
      exact ⟨by rw [fields_given, queue], fun q hq w => State.reconfigured_cue? hq⟩
    case keeps =>
      obtain ⟨queue, rfl⟩ := becomes.of_keeps stays keeps
      rw [State.reconfigured_nil]
      exact ⟨by rw [fields_given, queue], rfl, rfl⟩

end Sys2Proof
end
